-- ==== Sys2Proof/Word.lean ====
section
/-! DEFINITION. The word types of the CFC (00_scope.md R6, R8): bytes and the 56-bit request and response words. -/

namespace Sys2Proof

/-- A byte, the spec's `u8` (00_scope.md R6, R8). Every value of the CFC is unsigned. -/
abbrev Byte := BitVec 8

/-- One whole request or response word, the spec's `u56` (00_scope.md R6: REQ_WIDTH, RSP_WIDTH; 20_memory.md R45). -/
abbrev Word56 := BitVec 56

end Sys2Proof
end

