-- ==== Sys2Proof/Syntax.lean ====
section
/-! DEFINITION. The eight operations of the CFC as syntax, one constructor per row of spec/opcode_table.json (30_encoding.md
R64, R66), and the six pseudo-instructions (R72). -/

namespace Sys2Proof

/-- One CFC operation with the payload bytes it reads, in the order of 30_encoding.md R66. Payload bytes an operation does
not read are not part of it (R67). An unassigned OPC is no operation: the decoder refuses it by name (R65). -/
inductive Instr where
  /-- CMD.BUILD (OPC 0x01): KIND = P[0] (40_frame_codec.md R101). -/
  | cmdBuild (kind : Byte)
  /-- DEC.FLOW (OPC 0x02): b0 = val_hi, b1 = val_lo, b2 = crc (40_frame_codec.md R104). -/
  | decFlow (b0 b1 b2 : Byte)
  /-- DEC.SERIAL (OPC 0x03): id_hi, id_lo, crc_hi, id_hi2, id_lo2, crc_lo (40_frame_codec.md R105). -/
  | decSerial (b0 b1 b2 b3 b4 b5 : Byte)
  /-- CRC.STEP (OPC 0x10): DATA = P[0], CRCIN = P[1] (41_crc.md R135). -/
  | crcStep (data crcIn : Byte)
  /-- CRC.PAIR (OPC 0x11): IN1 = P[0], IN2 = P[1] (41_crc.md R136). -/
  | crcPair (in1 in2 : Byte)
  /-- CRC.CHECK (OPC 0x12): IN1 = P[0], IN2 = P[1], EXP = P[2] (41_crc.md R137). -/
  | crcCheck (in1 in2 exp : Byte)
  /-- CFG.WRITE (OPC 0x20): VAL = P[0], of which bit 0 alone is used (42_control.md R161). -/
  | cfgWrite (val : Byte)
  /-- CFG.READ (OPC 0x21): no operand (42_control.md R162). -/
  | cfgRead
  deriving DecidableEq, Repr

/-- Pseudo-instruction `cmd.start`, `cmd.build 0` (30_encoding.md R72). -/
def Instr.cmdStart : Instr := .cmdBuild 0

/-- Pseudo-instruction `cmd.softreset`, `cmd.build 1` (30_encoding.md R72). -/
def Instr.cmdSoftReset : Instr := .cmdBuild 1

/-- Pseudo-instruction `cmd.serial`, `cmd.build 2` (30_encoding.md R72). -/
def Instr.cmdSerial : Instr := .cmdBuild 2

/-- Pseudo-instruction `crc.on`, `cfg.write 1` (30_encoding.md R72). -/
def Instr.crcOn : Instr := .cfgWrite 1

/-- Pseudo-instruction `crc.off`, `cfg.write 0` (30_encoding.md R72). -/
def Instr.crcOff : Instr := .cfgWrite 0

/-- Pseudo-instruction `crc.first d`, `crc.step d, 0xFF` (30_encoding.md R72). -/
def Instr.crcFirst (d : Byte) : Instr := .crcStep d 0xFF

end Sys2Proof
end

