-- ==== Sys2Proof/Decode.lean ====
section
/-! DEFINITION. Request words: fields, the opcode map, the decoder and the encoder (30_encoding.md R60, R61, R64 to R71). -/

namespace Sys2Proof

/-- OPC, bits 55:48 of a request word (30_encoding.md R60). -/
def opcField (req : Word56) : Byte := req.extractLsb' 48 8

/-- Byte `i` of the payload of a request or response word, bits [47-8i : 40-8i], for `i` from 0 to 5 (20_memory.md R43,
30_encoding.md R61, R63). -/
def payloadByte (w : Word56) (i : Nat) : Byte := w.extractLsb' (40 - 8 * i) 8

/-- Six payload bytes packed into bits 47:0, byte 0 the most significant; bytes not listed are 0x00 (20_memory.md R43,
30_encoding.md R63, R71). -/
def packPayload (p : List Byte) : BitVec 48 :=
  p.getD 0 0 ++ p.getD 1 0 ++ p.getD 2 0 ++ p.getD 3 0 ++ p.getD 4 0 ++ p.getD 5 0

/-- A request or response word from its top byte, bits 55:48, and its payload bytes (30_encoding.md R60, R62). -/
def packWord (top : Byte) (p : List Byte) : Word56 := top ++ packPayload p

/-- The OPC value of each operation (30_encoding.md R64). -/
def Instr.opc : Instr → Byte
  | .cmdBuild _ => 0x01
  | .decFlow _ _ _ => 0x02
  | .decSerial _ _ _ _ _ _ => 0x03
  | .crcStep _ _ => 0x10
  | .crcPair _ _ => 0x11
  | .crcCheck _ _ _ => 0x12
  | .cfgWrite _ => 0x20
  | .cfgRead => 0x21

/-- The payload bytes each operation's operands occupy, from P[0] on (30_encoding.md R66). -/
def Instr.operands : Instr → List Byte
  | .cmdBuild kind => [kind]
  | .decFlow b0 b1 b2 => [b0, b1, b2]
  | .decSerial b0 b1 b2 b3 b4 b5 => [b0, b1, b2, b3, b4, b5]
  | .crcStep data crcIn => [data, crcIn]
  | .crcPair in1 in2 => [in1, in2]
  | .crcCheck in1 in2 exp => [in1, in2, exp]
  | .cfgWrite val => [val]
  | .cfgRead => []

/-- The one outcome a request word decodes to (30_encoding.md R65). -/
inductive Decoded where
  /-- One of the eight operations. -/
  | op (i : Instr)
  /-- ILLEGAL: an OPC outside the eight values of 30_encoding.md R64 (R68). -/
  | unassignedOpc (opc : Byte)
  deriving DecidableEq, Repr

/-- The decoder, total on 56-bit words: only OPC selects the operation, and payload bytes the operation does not read are
dropped (30_encoding.md R65, R66, R67). -/
def decode (req : Word56) : Decoded :=
  let p := payloadByte req
  if opcField req = 0x01 then .op (.cmdBuild (p 0))
  else if opcField req = 0x02 then .op (.decFlow (p 0) (p 1) (p 2))
  else if opcField req = 0x03 then .op (.decSerial (p 0) (p 1) (p 2) (p 3) (p 4) (p 5))
  else if opcField req = 0x10 then .op (.crcStep (p 0) (p 1))
  else if opcField req = 0x11 then .op (.crcPair (p 0) (p 1))
  else if opcField req = 0x12 then .op (.crcCheck (p 0) (p 1) (p 2))
  else if opcField req = 0x20 then .op (.cfgWrite (p 0))
  else if opcField req = 0x21 then .op .cfgRead
  else .unassignedOpc (opcField req)

/-- The encoder: the word an assembler writes for an operation, with 0x00 in every payload byte the operation does not list
(30_encoding.md R60, R71; log 16). -/
def encode (i : Instr) : Word56 := packWord i.opc i.operands

/-- The request word of a row of spec/opcode_table.json whose low `nbits` bits are `w`: one 56-bit word, the bits above
`nbits` zero (30_encoding.md R70; log 11). -/
def tableWord (nbits w : Nat) : Word56 := BitVec.ofNat 56 (w % 2 ^ nbits)

/-- What the decoder reads from the request word `tableWord nbits w`; none where it refuses (30_encoding.md R65). -/
def decodeTableWord (nbits w : Nat) : Option Instr :=
  match decode (tableWord nbits w) with
  | .op i => some i
  | .unassignedOpc _ => none

end Sys2Proof
end

