-- ==== Sys2Proof/Machine/Flags.lean ====
section
/-! DEFINITION. The outcome fields STATUS and FAILMASK and the response word that carries them (30_encoding.md R62, R63,
60_exceptions.md R181, R182). The CFC has no flags that persist (10_state.md R22). -/

namespace Sys2Proof.Machine

/-- The outcome of a request (60_exceptions.md R181). The code 3 is never produced, so there is no fourth outcome. -/
inductive Status where
  | ok
  | crcMismatch
  | illegalRequest
  deriving DecidableEq, Repr

/-- The STATUS code of an outcome (60_exceptions.md R181). -/
def Status.code : Status → BitVec 2
  | .ok => 0
  | .crcMismatch => 1
  | .illegalRequest => 2

/-- FAILMASK of a flow frame: triplet 0 is its only triplet (60_exceptions.md R182). -/
def flowFailmask (ok : Bool) : BitVec 2 := BitVec.ofBool false ++ BitVec.ofBool (!ok)

/-- FAILMASK of a serial frame: bit 1 says half 1 failed, bit 0 says half 0 failed (40_frame_codec.md R105,
60_exceptions.md R182). -/
def serialFailmask (ok0 ok1 : Bool) : BitVec 2 := BitVec.ofBool (!ok1) ++ BitVec.ofBool (!ok0)

/-- The top byte of a response: STATUS 55:54, FAILMASK 53:52, reserved zero 51:48 (30_encoding.md R62). -/
def responseTop (status : Status) (failmask : BitVec 2) : Byte := status.code ++ failmask ++ (0 : BitVec 4)

/-- The response word: its top byte and Q[0..5] in 47:0, unnamed bytes 0x00 (30_encoding.md R62, R63). -/
def packResponse (status : Status) (failmask : BitVec 2) (q : List Byte) : Word56 :=
  packWord (responseTop status failmask) q

/-- STATUS, bits 55:54 of a response word (30_encoding.md R62). -/
def statusField (rsp : Word56) : BitVec 2 := rsp.extractLsb' 54 2

/-- FAILMASK, bits 53:52 of a response word (30_encoding.md R62). -/
def failmaskField (rsp : Word56) : BitVec 2 := rsp.extractLsb' 52 2

/-- The reserved bits 51:48 of a response word (30_encoding.md R62). -/
def reservedField (rsp : Word56) : BitVec 4 := rsp.extractLsb' 48 4

/-- Q[0..5], bits 47:0 of a response word (30_encoding.md R62). -/
def resultField (rsp : Word56) : BitVec 48 := rsp.extractLsb' 0 48

end Sys2Proof.Machine
end

