-- ==== Sys2Proof/Config.lean ====
section
/-! DEFINITION. What an implementation of the CFC fixes (00_scope.md R2, R6, R7) and the free value of the ports. An `opaque`
constant has no body: nothing can be proved of its value. -/

namespace Sys2Proof.Config

/-- How many cycles beyond the first the response latency has: open in the spec (00_scope.md R7, R218; log 4). -/
opaque latencyExtra : Nat

/-- `P_LATENCY`: clock cycles from the transfer of a request to the first cycle its response is offered, an integer of at
least 1 (00_scope.md R7). No value of the machine depends on it. -/
def pLatency : Nat := latencyExtra + 1

/-- How many CFC instances beyond the first a system holds: open in the spec (00_scope.md R7, R193; log 5). -/
opaque instancesExtra : Nat

/-- `P_NUM_INSTANCES`: how many CFC instances a system holds, an integer of at least 1 (00_scope.md R7). -/
def pNumInstances : Nat := instancesExtra + 1

/-- What `rsp_data` carries in a cycle in which `rsp_valid` = 0: any value (93_implementation_defined.md; 10_state.md R28).
A free value, drawn afresh each cycle (log 6). -/
opaque idleRspData : Nat → Word56

/-- The identity string of the block (00_scope.md R2). -/
def identity : String := "CFC-CRC8-31-FF-MSB/FRAME-SFM3000/OPS1"

/-- CMD_FRAME_LEN in bytes (00_scope.md R6). -/
def cmdFrameLen : Nat := 2

/-- FLOW_FRAME_LEN in bytes (00_scope.md R6). -/
def flowFrameLen : Nat := 3

/-- SERIAL_FRAME_LEN in bytes (00_scope.md R6). -/
def serialFrameLen : Nat := 6

/-- DEV_ADDR7, the sensor's 7-bit bus address. The host's constant: it enters no CFC operation (00_scope.md R6). -/
def devAddr7 : BitVec 7 := 0x40

/-- DEV_ADDR8, which is DEV_ADDR7 shifted left one bit. The host's constant (00_scope.md R6). -/
def devAddr8 : Byte := devAddr7.setWidth 8 <<< 1

end Sys2Proof.Config
end

