-- ==== Sys2Proof/Machine/State.lean ====
section
/-! DEFINITION. The state of one CFC instance (10_state.md R27), the host's side of its ports (R28), the reasons a step can
stop, and the reset state (R31). -/

namespace Sys2Proof.Machine

/-- The whole architectural state of one CFC instance, exactly the triple of 10_state.md R27. -/
structure Cfc where
  /-- CFG.CRC_EN, bit 0 of the configuration register (R24). Bits 7:1 are hard-wired 0 and hold no storage. -/
  crcEn : Bool
  /-- RSP_FULL: a transaction is in flight (R26). -/
  rspFull : Bool
  /-- RSP_BUF: the response of the transaction in flight; its contents matter only while `rspFull` is true (R26, R27). -/
  rspBuf : Word56
  deriving DecidableEq, Repr

/-- What the host drives on the input ports at one rising edge of `clk` (10_state.md R28). -/
structure PortIn where
  /-- `rst`, synchronous and active high (70_reset_and_hazards.md R210). -/
  rst : Bool := false
  /-- `req_valid`: the host offers a request. -/
  reqValid : Bool := false
  /-- `req_data`: the request word. -/
  reqData : Word56 := 0
  /-- `rsp_ready`: the host takes the response in this cycle. -/
  rspReady : Bool := false
  deriving DecidableEq, Repr

/-- What the CFC drives on the output ports in one cycle (10_state.md R28). -/
structure PortOut where
  /-- `req_ready`: the CFC can accept a request in this cycle. -/
  reqReady : Bool
  /-- `rsp_valid`: the CFC offers a response. -/
  rspValid : Bool
  /-- `rsp_data`: the response word, meaningful only while `rspValid` is true. -/
  rspData : Word56
  deriving DecidableEq, Repr

/-- The machine: the CFC's own triple (`cfc`), and the model's own record of the ports (log 2), which is no state of the
CFC: when the transaction in flight began, what the host drives at the coming edges, and what it has taken. -/
structure State where
  /-- The architectural state (10_state.md R27). -/
  cfc : Cfc
  /-- The number of clock edges passed. It dates a transfer, and indexes the free value of `rsp_data` (log 6). -/
  cycle : Nat
  /-- The value of `cycle` at the edge at which the last request transferred (10_state.md R30). -/
  acceptCycle : Nat
  /-- What the host drives at the coming edges, next edge first; when the list is empty the inputs rest at 0 (log 3). -/
  inputs : List PortIn
  /-- The response words the host has taken, oldest first (10_state.md R27, Deliver). -/
  delivered : List Word56
  deriving DecidableEq, Repr

/-- The reasons the machine stops with a fault: none. The CFC has no traps, and every error is reported in the STATUS field
of a response (60_exceptions.md R180, R187; log 17). -/
inductive Fault where
  deriving DecidableEq, Repr

/-- The reasons an instruction has no meaning. -/
inductive Refusal where
  /-- Raised by an arm of `exec` for an instruction that has no meaning yet; no arm raises it now. Safe: the model stops
  where the hardware goes on. -/
  | notModelled (mnemonic : String)
  deriving DecidableEq, Repr

/-- The CFC right after reset (10_state.md R31): CRC checking enabled, nothing in flight. RSP_BUF is unspecified there and
never observable; the value 0 is a DESIGN CHOICE (log 1). -/
def Cfc.reset : Cfc := { crcEn := true, rspFull := false, rspBuf := 0 }

/-- The machine right after reset, with no port activity placed (10_state.md R31; log 14). -/
def State.reset : State := { cfc := Cfc.reset, cycle := 0, acceptCycle := 0, inputs := [], delivered := [] }

end Sys2Proof.Machine
end

