-- ==== Sys2Proof/Machine/Ops.lean ====
section
/-! DEFINITION. The named operations over the state: CFG, the response buffer, the error response, Deliver, the reset edge,
the ports, and the passing of a clock edge (10_state.md R24 to R31, 60_exceptions.md R180, R187, 70_reset_and_hazards.md
R211, R212). -/

namespace Sys2Proof.Machine

/-! ### The configuration register (10_state.md R24) -/

/-- CFG as CFG.READ sees it: bit 0 is CRC_EN and bits 7:1 read as zero (10_state.md R24). -/
def Cfc.cfg (c : Cfc) : Byte := (BitVec.ofBool c.crcEn).setWidth 8

/-- A write of CFG: bit 0 goes to CRC_EN, bits 7:1 are ignored (10_state.md R24). -/
def State.writeCfg (s : State) (v : Byte) : State :=
  { s with cfc := { s.cfc with crcEn := v.getLsbD 0 } }

/-! ### The response buffer (10_state.md R26, R27) -/

/-- `respond`: the response word is formed and placed in RSP_BUF, and RSP_FULL is set (00_scope.md R10, 10_state.md R26). -/
def State.respond (s : State) (status : Status) (failmask : BitVec 2) (q : List Byte) : State :=
  { s with cfc := { s.cfc with rspFull := true, rspBuf := packResponse status failmask q } }

/-- The one way an error is taken: a response whose Q bytes are all 0x00. It saves nothing, changes no CFG, and there is
nothing to return from (60_exceptions.md R180, R187, R188). -/
def State.respondError (s : State) (status : Status) (failmask : BitVec 2) : State :=
  s.respond status failmask []

/-- Deliver: RSP_FULL is cleared and the response word goes to the host (10_state.md R27, R30). -/
def State.deliver (s : State) : State :=
  { s with cfc := { s.cfc with rspFull := false }, delivered := s.delivered ++ [s.cfc.rspBuf] }

/-- The reset action of a reset edge (70_reset_and_hazards.md R211): a transaction in flight is discarded. -/
def State.resetEdge (s : State) : State :=
  { s with cfc := { s.cfc with crcEn := true, rspFull := false } }

/-! ### The ports (10_state.md R28 to R30) -/

/-- What the host drives in the present cycle, sampled at the next edge: the head of the inputs, or the inputs at rest. -/
def State.pins (s : State) : PortIn := s.inputs.headD {}

/-- `req_ready` = 1 exactly when `rst` = 0 and RSP_FULL = 0 (10_state.md R29, 70_reset_and_hazards.md R212). -/
def State.reqReady (s : State) : Bool := !s.pins.rst && !s.cfc.rspFull

/-- `rsp_valid` = 1 from the `latency`-th cycle after the request's transfer edge until the response transfers, and never
while RSP_FULL = 0 or `rst` = 1 (10_state.md R30, 70_reset_and_hazards.md R212; log 4, log 10). -/
def State.rspValid (latency : Nat) (s : State) : Bool :=
  !s.pins.rst && s.cfc.rspFull && decide (s.acceptCycle + latency ≤ s.cycle)

/-- What the CFC drives in the present cycle (10_state.md R28 to R30). `rsp_data` is RSP_BUF while `rsp_valid` = 1 and a
free value otherwise (93_implementation_defined.md; log 6). -/
def State.portOut (latency : Nat) (s : State) : PortOut :=
  { reqReady := s.reqReady
    rspValid := s.rspValid latency
    rspData := if s.rspValid latency then s.cfc.rspBuf else Config.idleRspData s.cycle }

/-- A request transfers at the next edge: `req_valid` = 1 and `req_ready` = 1 (10_state.md R29). -/
def State.requestTransfers (s : State) : Bool := s.pins.reqValid && s.reqReady

/-- A response transfers at the next edge: `rsp_valid` = 1 and `rsp_ready` = 1 (10_state.md R30). -/
def State.responseTransfers (latency : Nat) (s : State) : Bool := s.rspValid latency && s.pins.rspReady

/-! ### A clock edge passes -/

/-- The present inputs are used up and one more edge has passed. -/
def State.tick (s : State) : State := { s with inputs := s.inputs.tail, cycle := s.cycle + 1 }

/-- The edge that passes is the transfer edge of a request: the transaction is dated by it (10_state.md R30). -/
def State.transferTick (s : State) : State := { s.tick with acceptCycle := s.cycle }

/-- The host offers the request word in the present cycle, and nothing is in flight, so that it transfers at the next edge
(10_state.md R29; log 9). -/
def State.offerRequest (s : State) (req : Word56) : State :=
  { s with
    cfc := { s.cfc with rspFull := false }
    inputs := { reqValid := true, reqData := req } :: s.inputs }

end Sys2Proof.Machine
end

