-- ==== Sys2Proof/Machine/Control.lean ====
section
/-! DEFINITION. The configuration operations CFG.WRITE and CFG.READ (42_control.md). Both are open to every host
(60_exceptions.md R190). -/

namespace Sys2Proof.Machine

/-- CFG.WRITE (42_control.md R161): only bit 0 of VAL is used. -/
def execCfgWrite (val : Byte) (s : State) : Host.Outcome State Fault Refusal :=
  .next ((s.writeCfg val).respond .ok 0 [])

/-- CFG.READ (42_control.md R162). -/
def execCfgRead (s : State) : Host.Outcome State Fault Refusal :=
  .next (s.respond .ok 0 [s.cfc.cfg])

end Sys2Proof.Machine
end

