-- ==== Sys2Proof/Machine/CrcValidator.lean ====
section
/-! DEFINITION. The CRC validator operations CRC.STEP, CRC.PAIR and CRC.CHECK (41_crc.md). None of them reads CFG (R138). -/

namespace Sys2Proof.Machine

/-- CRC.STEP (41_crc.md R135). -/
def execCrcStep (data crcIn : Byte) (s : State) : Host.Outcome State Fault Refusal :=
  .next (s.respond .ok 0 [crc8 data crcIn])

/-- CRC.PAIR (41_crc.md R136). -/
def execCrcPair (in1 in2 : Byte) (s : State) : Host.Outcome State Fault Refusal :=
  .next (s.respond .ok 0 [crcFold2 in1 in2])

/-- CRC.CHECK (41_crc.md R137): a failed check is the result 0x00 with STATUS OK, no error. -/
def execCrcCheck (in1 in2 exp : Byte) (s : State) : Host.Outcome State Fault Refusal :=
  .next (s.respond .ok 0 [(BitVec.ofBool (crcCheck in1 in2 exp)).setWidth 8])

end Sys2Proof.Machine
end

