-- ==== Sys2Proof/Machine/Operands.lean ====
section
/-! DEFINITION. The frame values the codec builds from and splits into payload bytes (30_encoding.md R73 to R75,
40_frame_codec.md R100, R102, R103). -/

namespace Sys2Proof.Machine

/-- The command-frame table: byte 0 is sent first, and no CRC byte follows (30_encoding.md R73, 40_frame_codec.md R100). -/
def cmdFrame (kind : Byte) : Option (Byte × Byte) :=
  if kind = 0 then some (0x10, 0x00)
  else if kind = 1 then some (0x20, 0x00)
  else if kind = 2 then some (0x31, 0xAE)
  else none

/-- A flow frame split into its 16-bit big-endian value and its CRC byte, with no check (40_frame_codec.md R102). -/
def splitFlow (b0 b1 b2 : Byte) : BitVec 16 × Byte := (b0 ++ b1, b2)

/-- A serial-id frame split into the identifier, which skips byte 2 (40_frame_codec.md R106), and the two CRC bytes, with no
check (R103). -/
def splitSerial (b0 b1 b2 b3 b4 b5 : Byte) : BitVec 32 × Byte × Byte := (b0 ++ b1 ++ b3 ++ b4, b2, b5)

end Sys2Proof.Machine
end

