-- ==== Sys2Proof/Machine/FrameCodec.lean ====
section
/-! DEFINITION. The frame codec operations CMD.BUILD, DEC.FLOW and DEC.SERIAL (40_frame_codec.md). Each meaning is the
effect of the request at its transfer edge (10_state.md R27); `clockEdge` decides whether the request transfers (log 8). -/

namespace Sys2Proof.Machine

/-- CMD.BUILD (40_frame_codec.md R101). CFG is not read: the frame is a pure mapping of KIND. -/
def execCmdBuild (kind : Byte) (s : State) : Host.Outcome State Fault Refusal :=
  match cmdFrame kind with
  | none => .next (s.respondError .illegalRequest 0)
  | some (c0, c1) => .next (s.respond .ok 0 [c0, c1])

/-- DEC.FLOW (40_frame_codec.md R104): RAW16 and CRCB are delivered unless CRC_EN = 1 and the CRC byte is wrong. -/
def execDecFlow (b0 b1 b2 : Byte) (s : State) : Host.Outcome State Fault Refusal :=
  let (raw, crcb) := splitFlow b0 b1 b2
  let ok := crcCheck b0 b1 b2
  if s.cfc.crcEn && !ok then .next (s.respondError .crcMismatch (flowFailmask ok))
  else .next (s.respond .ok 0 [raw.extractLsb' 8 8, raw.extractLsb' 0 8, crcb])

/-- DEC.SERIAL (40_frame_codec.md R105): both halves are checked, each on its own, and ID32 skips byte 2 (R106). -/
def execDecSerial (b0 b1 b2 b3 b4 b5 : Byte) (s : State) : Host.Outcome State Fault Refusal :=
  let (id, crc0, crc1) := splitSerial b0 b1 b2 b3 b4 b5
  let ok0 := crcCheck b0 b1 b2
  let ok1 := crcCheck b3 b4 b5
  if s.cfc.crcEn && (!ok0 || !ok1) then .next (s.respondError .crcMismatch (serialFailmask ok0 ok1))
  else .next (s.respond .ok 0
    [id.extractLsb' 24 8, id.extractLsb' 16 8, id.extractLsb' 8 8, id.extractLsb' 0 8, crc0, crc1])

end Sys2Proof.Machine
end

