-- ==== Sys2Proof/Machine/Dispatch.lean ====
section
/-! DEFINITION. The meaning of each operation, one arm per constructor (30_encoding.md R64): `exec` of 10_state.md R27. -/

namespace Sys2Proof.Machine

def exec (i : Instr) (s : State) : Host.Outcome State Fault Refusal :=
  match i with
  | .cmdBuild kind => Sys2Proof.Machine.execCmdBuild kind s
  | .decFlow b0 b1 b2 => Sys2Proof.Machine.execDecFlow b0 b1 b2 s
  | .decSerial b0 b1 b2 b3 b4 b5 => Sys2Proof.Machine.execDecSerial b0 b1 b2 b3 b4 b5 s
  | .crcStep data crcIn => Sys2Proof.Machine.execCrcStep data crcIn s
  | .crcPair in1 in2 => Sys2Proof.Machine.execCrcPair in1 in2 s
  | .crcCheck in1 in2 exp => Sys2Proof.Machine.execCrcCheck in1 in2 exp s
  | .cfgWrite val => Sys2Proof.Machine.execCfgWrite val s
  | .cfgRead => Sys2Proof.Machine.execCfgRead s

end Sys2Proof.Machine
end

