-- ==== Sys2Proof/Machine/Edge.lean ====
section
/-! DEFINITION. The Accept transition and one rising edge of `clk` (10_state.md R27 to R30, 70_reset_and_hazards.md R210 to
R212, R217). -/

namespace Sys2Proof.Machine

/-- Accept: the request word is decoded and its operation executed; an unassigned OPC gets the ILLEGAL_REQUEST response and
changes nothing else (10_state.md R27, 30_encoding.md R65, R68). -/
def accept (req : Word56) (s : State) : Host.Outcome State Fault Refusal :=
  match decode req with
  | .op i => exec i s
  | .unassignedOpc _ => .next (s.respondError .illegalRequest 0)

/-- One rising edge of `clk`, with `P_LATENCY` as an argument (00_scope.md R7): the reset edge, a request transfer, a
response transfer, or none of them (10_state.md R28 to R30, 70_reset_and_hazards.md R211, R217). -/
def clockEdge (latency : Nat) (s : State) : Host.Outcome State Fault Refusal :=
  if s.pins.rst then .next s.resetEdge.tick
  else if s.requestTransfers then accept s.pins.reqData s.transferTick
  else if s.responseTransfers latency then .next s.deliver.tick
  else .next s.tick

end Sys2Proof.Machine
end

