-- ==== Sys2Proof/Machine/Step.lean ====
section
/-! DEFINITION. One step of the machine: one rising edge of `clk` (10_state.md R28; log 3). -/

namespace Sys2Proof.Machine

/-- One step: one rising edge of `clk`, at the latency the implementation has (00_scope.md R7). -/
def step (s : State) : Host.Outcome State Fault Refusal := clockEdge Config.pLatency s

/-- The machine with the instruction of a table row offered on the request port, so that the very next step accepts it
(10_state.md R29; log 9). -/
def State.withFetchWord (s : State) (nbits w : Nat) : State := s.offerRequest (tableWord nbits w)

end Sys2Proof.Machine
end

