-- ==== Sys2Proof/Machine/Asm.lean ====
section
/-! DEFINITION. The assembly notation of requests and the notation of responses (30_encoding.md R71, R72). No behaviour of
the CFC depends on it (92_eei_decisions.md D20); what the grammar leaves open of white space and letter case is log 15. -/

namespace Sys2Proof.Machine

/-- A blank between tokens (log 15). -/
def isBlank (c : Char) : Bool := c == ' ' || c == '\t'

/-- A text without the blanks at its two ends. -/
def trimBlanks (t : List Char) : List Char :=
  ((t.dropWhile isBlank).reverse.dropWhile isBlank).reverse

/-- The text before the first `;`: the rest of the line is comment (30_encoding.md R71). -/
def dropComment (t : List Char) : List Char := t.takeWhile (fun c => c != ';')

/-- A text split at every comma; the pieces are trimmed. -/
def splitCommas : List Char → List (List Char)
  | [] => [[]]
  | c :: t =>
    match c == ',', splitCommas t with
    | true, ps => [] :: ps
    | false, p :: ps => (c :: p) :: ps
    | false, [] => [[c]]

/-- The value of one hexadecimal digit, in either letter case (log 15). -/
def hexDigit (c : Char) : Option Nat :=
  if '0' ≤ c ∧ c ≤ '9' then some (c.toNat - '0'.toNat)
  else if 'a' ≤ c ∧ c ≤ 'f' then some (c.toNat - 'a'.toNat + 10)
  else if 'A' ≤ c ∧ c ≤ 'F' then some (c.toNat - 'A'.toNat + 10)
  else none

/-- The value of one decimal digit. -/
def decDigit (c : Char) : Option Nat :=
  if '0' ≤ c ∧ c ≤ '9' then some (c.toNat - '0'.toNat) else none

/-- Digits read from the most significant on, none where one of them is no digit of the base. -/
def readDigits (digit : Char → Option Nat) (base acc : Nat) : List Char → Option Nat
  | [] => some acc
  | c :: t =>
    match digit c with
    | some d => readDigits digit base (base * acc + d) t
    | none => none

/-- An operand: `0x` and two hexadecimal digits, or a decimal number from 0 to 255 (30_encoding.md R71). -/
def asmByte : List Char → Option Byte
  | ['0', 'x', a, b] => (readDigits hexDigit 16 0 [a, b]).map (BitVec.ofNat 8)
  | [] => none
  | c :: t =>
    match readDigits decDigit 10 0 (c :: t) with
    | some n => if n ≤ 255 then some (BitVec.ofNat 8 n) else none
    | none => none

/-- The operand of `cmd.build`: a kind name or a byte (30_encoding.md R71). -/
def asmKind (t : List Char) : Option Byte :=
  if t = "start".toList then some 0
  else if t = "softreset".toList then some 1
  else if t = "serial".toList then some 2
  else asmByte t

/-- All of a list of operands, none where one of them is no operand. -/
def asmBytes : List (List Char) → Option (List Byte)
  | [] => some []
  | t :: ts =>
    match asmByte t, asmBytes ts with
    | some b, some bs => some (b :: bs)
    | _, _ => none

/-- The operation a mnemonic and its byte operands stand for; `cmd.build` is read by `asmOperation` (30_encoding.md R71,
R72). -/
def asmByteOperation (mnemonic : List Char) (ops : List Byte) : Option Instr :=
  match ops with
  | [] =>
    if mnemonic = "cfg.read".toList then some .cfgRead
    else if mnemonic = "cmd.start".toList then some Instr.cmdStart
    else if mnemonic = "cmd.softreset".toList then some Instr.cmdSoftReset
    else if mnemonic = "cmd.serial".toList then some Instr.cmdSerial
    else if mnemonic = "crc.on".toList then some Instr.crcOn
    else if mnemonic = "crc.off".toList then some Instr.crcOff
    else none
  | [a] =>
    if mnemonic = "cfg.write".toList then some (.cfgWrite a)
    else if mnemonic = "crc.first".toList then some (Instr.crcFirst a)
    else none
  | [a, b] =>
    if mnemonic = "crc.step".toList then some (.crcStep a b)
    else if mnemonic = "crc.pair".toList then some (.crcPair a b)
    else none
  | [a, b, c] =>
    if mnemonic = "dec.flow".toList then some (.decFlow a b c)
    else if mnemonic = "crc.check".toList then some (.crcCheck a b c)
    else none
  | [a, b, c, d, e, f] =>
    if mnemonic = "dec.serial".toList then some (.decSerial a b c d e f) else none
  | _ => none

/-- The operation a mnemonic and its operands stand for (30_encoding.md R71, R72). -/
def asmOperation (mnemonic : List Char) (ops : List (List Char)) : Option Instr :=
  if mnemonic = "cmd.build".toList then
    match ops with
    | [k] => (asmKind k).map .cmdBuild
    | _ => none
  else
    match asmBytes ops with
    | some bs => asmByteOperation mnemonic bs
    | none => none

/-- The operand of `.req`: `0x` and 14 hexadecimal digits, one request word written verbatim (30_encoding.md R71). -/
def asmRaw : List Char → Option Word56
  | '0' :: 'x' :: t => if t.length = 14 then (readDigits hexDigit 16 0 t).map (BitVec.ofNat 56) else none
  | _ => none

/-- A line without its comment, as its mnemonic and the text of its operands. -/
def asmSplit (line : List Char) : List Char × List Char :=
  let t := trimBlanks (dropComment line)
  (t.takeWhile (fun c => !isBlank c), trimBlanks (t.dropWhile (fun c => !isBlank c)))

/-- The request word one line of assembly stands for (30_encoding.md R71, R72): an operation encoded with 0x00 in every byte
not listed, or a word written verbatim. -/
def assembleLine (line : String) : Option Word56 :=
  let (mnemonic, rest) := asmSplit line.toList
  if mnemonic = ".req".toList then asmRaw rest
  else
    let ops := if rest = [] then [] else (splitCommas rest).map trimBlanks
    (asmOperation mnemonic ops).map encode

/-- One hexadecimal digit, upper case. -/
def hexChar (d : BitVec 4) : Char := "0123456789ABCDEF".toList.getD d.toNat '0'

/-- A byte operand written out in one of its two numerals: `0x` and two hexadecimal digits, upper case (log 15), or the
decimal number (30_encoding.md R71). -/
def asmNumeral (hex : Bool) (b : Byte) : List Char :=
  if hex then ['0', 'x', hexChar (b.extractLsb' 4 4), hexChar (b.extractLsb' 0 4)] else Nat.toDigits 10 b.toNat

/-- The notation of a response word: an arrow, `0x` and 14 hexadecimal digits (30_encoding.md R71). -/
def responseText (rsp : Word56) : List Char :=
  "-> 0x".toList ++ (List.range 14).map (fun i => hexChar (rsp.extractLsb' (52 - 4 * i) 4))

end Sys2Proof.Machine
end

