-- ==== Sys2Proof/Machine/System.lean ====
section
/-! DEFINITION. A system of several CFC instances (60_exceptions.md R193): each has its own state and ports, clock included,
and nothing is shared. `Sys2Proof.core` is one instance (log 5). -/

namespace Sys2Proof.Machine

/-- The instances of a system (60_exceptions.md R193). -/
structure System where
  cfcs : List State
  deriving DecidableEq, Repr

/-- `P_NUM_INSTANCES` instances, each right after its own reset (60_exceptions.md R193). -/
def System.reset : System := { cfcs := List.replicate Config.pNumInstances State.reset }

/-- A clock edge at instance `k` alone; a number that is no instance's names no edge (60_exceptions.md R193). -/
def System.stepAt (k : Nat) (y : System) : Host.Outcome System Fault Refusal :=
  match y.cfcs[k]? with
  | none => .next y
  | some s =>
    match step s with
    | .next t => .next { y with cfcs := y.cfcs.set k t }
    | .fault r => .fault r
    | .refused r => .refused r

end Sys2Proof.Machine
end

