-- ==== Sys2Proof/Machine/Transaction.lean ====
section
/-! DEFINITION. The transaction-level step relation of 10_state.md R27 on the architectural triple alone, with `exec` written
a second time, from the response layouts of 30_encoding.md R62, R73 and R76 and the CRC table of 41_crc.md R140. The machine
does not use this file: statements compare the machine with it. -/

namespace Sys2Proof.Machine

/-- `crcFold2` by the reference table (41_crc.md R139 item 4). -/
def tableFold2 (a b : Byte) : Byte := crcTable (crcTable (a ^^^ 0xFF) ^^^ b)

/-- An OK response with the six result bytes given, each shifted to its place (30_encoding.md R62, R63: the top byte is
0x00). -/
def okWord (q0 q1 q2 q3 q4 q5 : Byte) : Word56 :=
  q0.setWidth 56 <<< 40 ||| q1.setWidth 56 <<< 32 ||| q2.setWidth 56 <<< 24 ||| q3.setWidth 56 <<< 16 |||
    q4.setWidth 56 <<< 8 ||| q5.setWidth 56

/-- The response word of a request and CRC_EN after it (10_state.md R27, 30_encoding.md R64, R68, R76, 60_exceptions.md
R183): `P[i]` is the byte at bits [47-8i : 40-8i]. -/
def txnExec (crcEn : Bool) (req : Word56) : Bool × Word56 :=
  let p0 : Byte := req.extractLsb' 40 8
  let p1 : Byte := req.extractLsb' 32 8
  let p2 : Byte := req.extractLsb' 24 8
  let p3 : Byte := req.extractLsb' 16 8
  let p4 : Byte := req.extractLsb' 8 8
  let p5 : Byte := req.extractLsb' 0 8
  match (req.extractLsb' 48 8).toNat with
  | 0x01 =>
    (crcEn, match p0.toNat with
      | 0 => 0x00100000000000
      | 1 => 0x00200000000000
      | 2 => 0x0031AE00000000
      | _ => 0x80000000000000)
  | 0x02 =>
    (crcEn, if crcEn = true ∧ tableFold2 p0 p1 ≠ p2 then 0x50000000000000 else okWord p0 p1 p2 0 0 0)
  | 0x03 =>
    (crcEn,
      if crcEn = true ∧ tableFold2 p0 p1 ≠ p2 ∧ tableFold2 p3 p4 ≠ p5 then 0x70000000000000
      else if crcEn = true ∧ tableFold2 p3 p4 ≠ p5 then 0x60000000000000
      else if crcEn = true ∧ tableFold2 p0 p1 ≠ p2 then 0x50000000000000
      else okWord p0 p1 p3 p4 p2 p5)
  | 0x10 => (crcEn, okWord (crcTable (p0 ^^^ p1)) 0 0 0 0 0)
  | 0x11 => (crcEn, okWord (tableFold2 p0 p1) 0 0 0 0 0)
  | 0x12 => (crcEn, if tableFold2 p0 p1 = p2 then 0x00010000000000 else 0x00000000000000)
  | 0x20 => (p0.toNat % 2 == 1, 0x00000000000000)
  | 0x21 => (crcEn, if crcEn = true then 0x00010000000000 else 0x00000000000000)
  | _ => (crcEn, 0x80000000000000)

/-- The three transitions of 10_state.md R27. -/
inductive Txn where
  /-- `Accept(req)`. -/
  | accept (req : Word56)
  /-- `Deliver()`, which returns the response word given here. -/
  | deliver (rsp : Word56)
  /-- `Reset()`. -/
  | reset
  deriving DecidableEq, Repr

/-- One transition where it is enabled, and none where it is not (10_state.md R27). -/
def Txn.apply (c : Cfc) : Txn → Option Cfc
  | .accept req =>
    if c.rspFull then none
    else some { crcEn := (txnExec c.crcEn req).1, rspFull := true, rspBuf := (txnExec c.crcEn req).2 }
  | .deliver rsp => if c.rspFull = true ∧ rsp = c.rspBuf then some { c with rspFull := false } else none
  | .reset => some { c with crcEn := true, rspFull := false }

/-- A list of transitions in order, none where one of them is not enabled. -/
def Txn.applyAll : List Txn → Cfc → Option Cfc
  | [], c => some c
  | x :: xs, c =>
    match x.apply c with
    | some c' => Txn.applyAll xs c'
    | none => none

/-- The words the Deliver transitions of a list return, in order. -/
def Txn.deliveries : List Txn → List Word56
  | [] => []
  | .deliver rsp :: xs => rsp :: Txn.deliveries xs
  | .accept _ :: xs => Txn.deliveries xs
  | .reset :: xs => Txn.deliveries xs

/-- The request words the Accept transitions of a list take, in order. -/
def Txn.acceptances : List Txn → List Word56
  | [] => []
  | .accept req :: xs => req :: Txn.acceptances xs
  | .deliver _ :: xs => Txn.acceptances xs
  | .reset :: xs => Txn.acceptances xs

/-- CRC_EN after a list of requests executed in order (20_memory.md R46: request n+1 sees CFG as request n left it). -/
def crcEnAfter (crcEn : Bool) : List Word56 → Bool
  | [] => crcEn
  | req :: reqs => crcEnAfter (txnExec crcEn req).1 reqs

/-- The responses of a list of requests executed in order, one per request (20_memory.md R46). -/
def responsesInOrder (crcEn : Bool) : List Word56 → List Word56
  | [] => []
  | req :: reqs => (txnExec crcEn req).2 :: responsesInOrder (txnExec crcEn req).1 reqs

end Sys2Proof.Machine
end

