-- ==== Sys2Proof/Safety.lean ====
section
/-! DEFINITION. The terms statements about runs are made in: what a legal response is, the invariant of the machine, which
requests transfer along a run, and what a host may use of a response. -/

namespace Sys2Proof.Machine

/-- A response word the CFC can produce: STATUS is not 3, the reserved bits are 0, FAILMASK is other than 0b00 exactly when
STATUS is CRC_MISMATCH, and every Q byte is 0x00 where STATUS is not OK (30_encoding.md R62, R63, 60_exceptions.md R181,
R182). -/
def legalResponse (rsp : Word56) : Bool :=
  statusField rsp != 3 && reservedField rsp == 0 && ((failmaskField rsp != 0) == (statusField rsp == 1)) &&
    (statusField rsp == 0 || resultField rsp == 0)

/-- The machine's invariant: a response in flight is a legal word and its transfer edge lies in the past, and the host has
taken legal words only (10_state.md R26, R30, 30_encoding.md R62, 60_exceptions.md R181, R182). -/
def Inv (s : State) : Prop :=
  (s.cfc.rspFull = true → legalResponse s.cfc.rspBuf = true ∧ s.acceptCycle < s.cycle) ∧
    ∀ w ∈ s.delivered, legalResponse w = true

/-- The response in flight, if there is one (10_state.md R26). -/
def State.pending (s : State) : List Word56 := if s.cfc.rspFull then [s.cfc.rspBuf] else []

/-- `k` clock edges in a row. -/
def run : Nat → State → Host.Outcome State Fault Refusal
  | 0, s => .next s
  | k + 1, s =>
    match step s with
    | .next t => run k t
    | .fault r => .fault r
    | .refused r => .refused r

/-- The request words that transfer during the next `k` edges, in order (10_state.md R29, 20_memory.md R46). -/
def transfers : Nat → State → List Word56
  | 0, _ => []
  | k + 1, s =>
    let now := if s.requestTransfers then [s.pins.reqData] else []
    match step s with
    | .next t => now ++ transfers k t
    | .fault _ => now
    | .refused _ => now

/-- `rst` = 0 at each of the next `k` edges (70_reset_and_hazards.md R210). -/
def noReset (k : Nat) (s : State) : Prop := ∀ p ∈ s.inputs.take k, p.rst = false

/-- The bits of a request word that can make a difference, by OPC: OPC itself and the payload bits the operation reads
(30_encoding.md R66, R67). -/
def readMask (opc : Byte) : Word56 :=
  if opc = 0x01 then 0xFFFF0000000000
  else if opc = 0x02 then 0xFFFFFFFF000000
  else if opc = 0x03 then 0xFFFFFFFFFFFFFF
  else if opc = 0x10 then 0xFFFFFF00000000
  else if opc = 0x11 then 0xFFFFFF00000000
  else if opc = 0x12 then 0xFFFFFFFF000000
  else if opc = 0x20 then 0xFF010000000000
  else 0xFF000000000000

/-- The bits of an operation's request word that its assembly line lists: OPC and the listed payload bytes, whole
(30_encoding.md R71). -/
def listedMask : Instr → Word56
  | .cmdBuild _ => 0xFFFF0000000000
  | .decFlow _ _ _ => 0xFFFFFFFF000000
  | .decSerial _ _ _ _ _ _ => 0xFFFFFFFFFFFFFF
  | .crcStep _ _ => 0xFFFFFF00000000
  | .crcPair _ _ => 0xFFFFFF00000000
  | .crcCheck _ _ _ => 0xFFFFFFFF000000
  | .cfgWrite _ => 0xFFFF0000000000
  | .cfgRead => 0xFF000000000000

/-- What a host may use of a response: the result bytes of an OK response, and nothing of any other
(70_reset_and_hazards.md R224). -/
def usablePayload (rsp : Word56) : Option (BitVec 48) :=
  if statusField rsp = Status.ok.code then some (resultField rsp) else none

end Sys2Proof.Machine
end

