-- ==== Sys2Proof/Certificates/Slice0/Obligations.lean ====
section
/-! DEFINITION. The statements about the CFC, from the numbered rules of the spec. -/

open Sys2Proof Sys2Proof.Machine

/-! ### Encoding -/

/-- Decoding the word an assembler writes gives the operation back, for every operation and every operand value
(30_encoding.md R60, R64, R66, R71). That the word holds VAL of CFG.WRITE whole, its ignored bits 7:1 included, is the
model's reading (log 16, DEDUCED). -/
def Obligations.DecodeOfEncodeIsTheOperation : Prop :=
  ∀ i : Instr, decode (encode i) = .op i

/-- A word that decodes to an operation is that operation's encoding once the payload bytes the operation does not list are
cleared. That a byte not listed is written as 0x00 is 30_encoding.md R71. That a listed byte is kept whole, the ignored bits
7:1 of VAL of CFG.WRITE too, is the model's reading (log 16, DEDUCED): R71 gives P[0] = v, while R67 and D10 of
92_eei_decisions.md say that an assembler writes 0 in every don't-care bit. -/
def Obligations.EncodeOfDecodeClearsUnlistedBytes : Prop :=
  ∀ (w : Word56) (i : Instr), decode w = .op i → encode i = w &&& listedMask i

/-- Words written out from the spec's test vectors decode to the operations they stand for (30_encoding.md R60, R64). -/
def Obligations.SpecWordsDecode : Prop :=
  decode 0x01020000000000 = .op (.cmdBuild 2) ∧
  decode 0x027D00FA000000 = .op (.decFlow 0x7D 0x00 0xFA) ∧
  decode 0x03AABBC5CCDDD7 = .op (.decSerial 0xAA 0xBB 0xC5 0xCC 0xDD 0xD7) ∧
  decode 0x10BEFF00000000 = .op (.crcStep 0xBE 0xFF) ∧
  decode 0x11BEEF00000000 = .op (.crcPair 0xBE 0xEF) ∧
  decode 0x121000EF000000 = .op (.crcCheck 0x10 0x00 0xEF) ∧
  decode 0x20FE0000000000 = .op (.cfgWrite 0xFE) ∧
  decode 0x21000000000000 = .op .cfgRead ∧
  decode 0x22112200000000 = .unassignedOpc 0x22

/-- 30_encoding.md R65: every 56-bit word decodes to exactly one outcome, selected by bits 55:48 alone; any other OPC is
ILLEGAL, which responds (2, 0b00, []). -/
def Obligations.DecodingIsTotalAndByOpcAlone : Prop :=
  ∀ (w : Word56) (s : State),
    (w.extractLsb' 48 8 = 0x01 → decode w = .op (.cmdBuild (w.extractLsb' 40 8))) ∧
    (w.extractLsb' 48 8 = 0x02 →
      decode w = .op (.decFlow (w.extractLsb' 40 8) (w.extractLsb' 32 8) (w.extractLsb' 24 8))) ∧
    (w.extractLsb' 48 8 = 0x03 →
      decode w = .op (.decSerial (w.extractLsb' 40 8) (w.extractLsb' 32 8) (w.extractLsb' 24 8) (w.extractLsb' 16 8)
        (w.extractLsb' 8 8) (w.extractLsb' 0 8))) ∧
    (w.extractLsb' 48 8 = 0x10 → decode w = .op (.crcStep (w.extractLsb' 40 8) (w.extractLsb' 32 8))) ∧
    (w.extractLsb' 48 8 = 0x11 → decode w = .op (.crcPair (w.extractLsb' 40 8) (w.extractLsb' 32 8))) ∧
    (w.extractLsb' 48 8 = 0x12 →
      decode w = .op (.crcCheck (w.extractLsb' 40 8) (w.extractLsb' 32 8) (w.extractLsb' 24 8))) ∧
    (w.extractLsb' 48 8 = 0x20 → decode w = .op (.cfgWrite (w.extractLsb' 40 8))) ∧
    (w.extractLsb' 48 8 = 0x21 → decode w = .op .cfgRead) ∧
    (w.extractLsb' 48 8 ∉ ([0x01, 0x02, 0x03, 0x10, 0x11, 0x12, 0x20, 0x21] : List Byte) →
      decode w = .unassignedOpc (w.extractLsb' 48 8) ∧
      accept w s = .next { s with cfc := { s.cfc with rspFull := true, rspBuf := 0x80000000000000 } })

/-- 30_encoding.md R68: an illegal request (one of 248 OPC values, or CMD.BUILD with KIND 0x03 to 0xFF) gets the response
0x80000000000000 and changes nothing else; no other request gets ILLEGAL_REQUEST. -/
def Obligations.IllegalRequestsGetOnlyTheErrorResponse : Prop :=
  ((List.range 256).filter (fun o => o = 0 ∨ (0x04 ≤ o ∧ o ≤ 0x0F) ∨ (0x13 ≤ o ∧ o ≤ 0x1F) ∨ 0x22 ≤ o)).length = 248 ∧
  ∀ (w : Word56) (s : State),
    let o := (w.extractLsb' 48 8).toNat
    let illegal := (o = 0 ∨ (0x04 ≤ o ∧ o ≤ 0x0F) ∨ (0x13 ≤ o ∧ o ≤ 0x1F) ∨ 0x22 ≤ o) ∨
      (o = 0x01 ∧ 0x03 ≤ (w.extractLsb' 40 8).toNat)
    (illegal → accept w s = .next { s with cfc := { s.cfc with rspFull := true, rspBuf := 0x80000000000000 } }) ∧
    (¬ illegal → ∃ t, accept w s = .next t ∧ t.cfc.rspBuf.extractLsb' 54 2 ≠ 2)

/-- Payload bits an operation does not read are ignored: any value in them gives the same result (30_encoding.md, the
don't-care list of section 4). -/
def Obligations.DontCareBitsMakeNoDifference : Prop :=
  ∀ (w v : Word56) (s : State), w &&& readMask (opcField w) = v &&& readMask (opcField w) → accept w s = accept v s

/-! ### The operations: each runs on every operand and every state, and changes CRC_EN and the response buffer alone -/

/-- CMD.BUILD (40_frame_codec.md section 2): the frames of KIND 0, 1 and 2, and ILLEGAL_REQUEST for every other KIND. -/
def Obligations.CmdBuildAnswersTheCommandFrame : Prop :=
  ∀ (k : Byte) (s : State),
    exec (.cmdBuild k) s = .next { s with cfc := { s.cfc with
      rspFull := true
      rspBuf :=
        if k.toNat = 0 then 0x00100000000000
        else if k.toNat = 1 then 0x00200000000000
        else if k.toNat = 2 then 0x0031AE00000000
        else 0x80000000000000 } }

/-- DEC.FLOW (40_frame_codec.md section 3): the value and the CRC byte, or CRC_MISMATCH with no value. -/
def Obligations.DecFlowAnswersValueOrMismatch : Prop :=
  ∀ (b0 b1 b2 : Byte) (s : State),
    exec (.decFlow b0 b1 b2) s = .next { s with cfc := { s.cfc with
      rspFull := true
      rspBuf :=
        if s.cfc.crcEn = true ∧ b2 ≠ crcFold2 b0 b1 then 0x50000000000000 else okWord b0 b1 b2 0 0 0 } }

/-- DEC.SERIAL (40_frame_codec.md section 4): the identifier and both CRC bytes, or CRC_MISMATCH naming the failed halves. -/
def Obligations.DecSerialAnswersIdOrFailedHalves : Prop :=
  ∀ (b0 b1 b2 b3 b4 b5 : Byte) (s : State),
    exec (.decSerial b0 b1 b2 b3 b4 b5) s = .next { s with cfc := { s.cfc with
      rspFull := true
      rspBuf :=
        if s.cfc.crcEn = false then okWord b0 b1 b3 b4 b2 b5
        else if crcFold2 b0 b1 = b2 then
          (if crcFold2 b3 b4 = b5 then okWord b0 b1 b3 b4 b2 b5 else 0x60000000000000)
        else (if crcFold2 b3 b4 = b5 then 0x50000000000000 else 0x70000000000000) } }

/-- CRC.STEP (41_crc.md section 2): the response carries `crc8(DATA, CRCIN)`, which is the table's entry at `DATA ^ CRCIN`. -/
def Obligations.CrcStepAnswersOneUpdate : Prop :=
  ∀ (d c : Byte) (s : State),
    exec (.crcStep d c) s = .next { s with cfc := { s.cfc with
      rspFull := true, rspBuf := okWord (crc8 d c) 0 0 0 0 0 } } ∧
    crc8 d c = crcTable (d ^^^ c)

/-- CRC.PAIR (41_crc.md section 2): the response carries the seeded fold of the two bytes, which is the fold by the table,
and two chained CRC.STEPs from the seed give the same response. -/
def Obligations.CrcPairAnswersTheSeededFold : Prop :=
  ∀ (a b : Byte) (s : State),
    exec (.crcPair a b) s = .next { s with cfc := { s.cfc with
      rspFull := true, rspBuf := okWord (crcFold2 a b) 0 0 0 0 0 } } ∧
    crcFold2 a b = tableFold2 a b ∧
    ∀ t u, exec (Instr.crcFirst a) s = .next t → exec (.crcStep b (payloadByte t.cfc.rspBuf 0)) t = .next u →
      exec (.crcPair a b) s = .next u

/-- CRC.CHECK (41_crc.md section 2): 0x01 on a match and 0x00 otherwise, with STATUS OK either way. -/
def Obligations.CrcCheckAnswersMatchAsResult : Prop :=
  ∀ (a b e : Byte) (s : State),
    exec (.crcCheck a b e) s = .next { s with cfc := { s.cfc with
      rspFull := true
      rspBuf := if crcFold2 a b = e then 0x00010000000000 else 0 } }

/-- CFG.WRITE (42_control.md): bit 0 of VAL goes to CRC_EN, the response is 0, and nothing else changes. -/
def Obligations.CfgWriteSetsCrcEnFromBitZero : Prop :=
  ∀ (v : Byte) (s : State),
    exec (.cfgWrite v) s = .next { s with cfc := {
      crcEn := v.toNat % 2 == 1, rspFull := true, rspBuf := 0 } }

/-- CFG.READ (42_control.md): result byte 0 is CRC_EN in bit 0 and zero in bits 7:1. -/
def Obligations.CfgReadAnswersCrcEn : Prop :=
  ∀ s : State,
    exec .cfgRead s = .next { s with cfc := { s.cfc with
      rspFull := true, rspBuf := if s.cfc.crcEn = true then 0x00010000000000 else 0 } }

/-- The machine's Accept, decoder and meanings together, gives for every word and state what the layout tables and the CRC
table of the spec give (30_encoding.md sections 2, 4 and 7, 41_crc.md section 3, 10_state.md section 3). -/
def Obligations.AcceptAgreesWithTheLayoutTables : Prop :=
  ∀ (w : Word56) (s : State),
    accept w s = .next { s with cfc := {
      crcEn := (txnExec s.cfc.crcEn w).1, rspFull := true, rspBuf := (txnExec s.cfc.crcEn w).2 } }

/-! ### Status, failure mask, integrity -/

/-- 60_exceptions.md R183: the causes of each status, by operation, what each records, and that an error response changes no
other state and carries no result. -/
def Obligations.StatusCausesByOperation : Prop :=
  (∀ (w : Word56) (o : Byte) (s : State), decode w = .unassignedOpc o →
    accept w s = .next { s with cfc := { s.cfc with rspFull := true, rspBuf := 0x80000000000000 } }) ∧
  ∀ (i : Instr) (s t : State), exec i s = .next t →
    (statusField t.cfc.rspBuf = 2 ↔ ∃ k, i = .cmdBuild k ∧ 0x03 ≤ k.toNat) ∧
    (statusField t.cfc.rspBuf = 1 ↔ s.cfc.crcEn = true ∧
      ((∃ b0 b1 b2, i = .decFlow b0 b1 b2 ∧ crcFold2 b0 b1 ≠ b2) ∨
        (∃ b0 b1 b2 b3 b4 b5, i = .decSerial b0 b1 b2 b3 b4 b5 ∧ (crcFold2 b0 b1 ≠ b2 ∨ crcFold2 b3 b4 ≠ b5)))) ∧
    statusField t.cfc.rspBuf ≠ 3 ∧
    (∀ b0 b1 b2, i = .decFlow b0 b1 b2 → statusField t.cfc.rspBuf = 1 → failmaskField t.cfc.rspBuf = 0b01) ∧
    (∀ b0 b1 b2 b3 b4 b5, i = .decSerial b0 b1 b2 b3 b4 b5 → statusField t.cfc.rspBuf = 1 →
      failmaskField t.cfc.rspBuf =
        (if crcFold2 b3 b4 = b5 then 0b00 else 0b10) ||| (if crcFold2 b0 b1 = b2 then 0b00 else 0b01)) ∧
    (statusField t.cfc.rspBuf ≠ 1 → failmaskField t.cfc.rspBuf = 0b00) ∧
    (statusField t.cfc.rspBuf ≠ 0 →
      resultField t.cfc.rspBuf = 0 ∧
        t = { s with cfc := { s.cfc with rspFull := true, rspBuf := t.cfc.rspBuf } })

/-- 60_exceptions.md R182: which bit of FAILMASK is set when, that it is 0b00 unless the status is CRC_MISMATCH and while
CRC_EN = 0, and other than 0b00 in a CRC_MISMATCH response. -/
def Obligations.FailmaskNamesTheFailedTriplets : Prop :=
  ∀ (w : Word56) (s t : State), accept w s = .next t →
    (t.cfc.rspBuf.getLsbD 52 = true ↔ s.cfc.crcEn = true ∧
      ((∃ b0 b1 b2, decode w = .op (.decFlow b0 b1 b2) ∧ crcFold2 b0 b1 ≠ b2) ∨
        (∃ b0 b1 b2 b3 b4 b5, decode w = .op (.decSerial b0 b1 b2 b3 b4 b5) ∧ crcFold2 b0 b1 ≠ b2))) ∧
    (t.cfc.rspBuf.getLsbD 53 = true ↔ s.cfc.crcEn = true ∧
      ∃ b0 b1 b2 b3 b4 b5, decode w = .op (.decSerial b0 b1 b2 b3 b4 b5) ∧ crcFold2 b3 b4 ≠ b5) ∧
    (failmaskField t.cfc.rspBuf ≠ 0 ↔ statusField t.cfc.rspBuf = 1) ∧
    (s.cfc.crcEn = false → failmaskField t.cfc.rspBuf = 0)

/-- 40_frame_codec.md R107: with CRC_EN = 1, a decode answers OK only if every triplet passes its check, and a CRC_MISMATCH
response carries no decoded value. -/
def Obligations.FrameIntegrity : Prop :=
  (∀ (b0 b1 b2 : Byte) (s t : State), s.cfc.crcEn = true → exec (.decFlow b0 b1 b2) s = .next t →
    statusField t.cfc.rspBuf = 0 → crcCheck b0 b1 b2 = true) ∧
  (∀ (b0 b1 b2 b3 b4 b5 : Byte) (s t : State), s.cfc.crcEn = true → exec (.decSerial b0 b1 b2 b3 b4 b5) s = .next t →
    statusField t.cfc.rspBuf = 0 → crcCheck b0 b1 b2 = true ∧ crcCheck b3 b4 b5 = true) ∧
  (∀ (i : Instr) (s t : State), exec i s = .next t → statusField t.cfc.rspBuf = 1 → resultField t.cfc.rspBuf = 0)

/-- 40_frame_codec.md R106: the identifier a DEC.SERIAL delivers, bits 47:16 of an OK response, is
`concat(b0, b1, b3, b4)`: byte 2 is skipped. -/
def Obligations.SerialIdSkipsByteTwo : Prop :=
  ∀ (b0 b1 b2 b3 b4 b5 : Byte) (s t : State), exec (.decSerial b0 b1 b2 b3 b4 b5) s = .next t →
    statusField t.cfc.rspBuf = 0 →
      (t.cfc.rspBuf.extractLsb' 16 32).toNat = b0.toNat * 2 ^ 24 + b1.toNat * 2 ^ 16 + b3.toNat * 2 ^ 8 + b4.toNat

/-- 41_crc.md R138: the CRC operations answer the same whatever CRC_EN holds; of the operations that do not read CFG as
data, CRC_EN governs DEC.FLOW and DEC.SERIAL only, and there only whether the frame is rejected. -/
def Obligations.CrcEnGovernsFrameRejectionOnly : Prop :=
  (∀ (i : Instr) (s s' t t' : State), exec i s = .next t → exec i s' = .next t' →
    (∀ b0 b1 b2, i ≠ .decFlow b0 b1 b2) → (∀ b0 b1 b2 b3 b4 b5, i ≠ .decSerial b0 b1 b2 b3 b4 b5) → i ≠ .cfgRead →
      t.cfc.rspBuf = t'.cfc.rspBuf) ∧
  (∀ (i : Instr) (s s' t t' : State), exec i s = .next t → exec i s' = .next t' → i ≠ .cfgRead →
    statusField t.cfc.rspBuf = statusField t'.cfc.rspBuf → t.cfc.rspBuf = t'.cfc.rspBuf)

/-- The top byte of every response is one of five values (30_encoding.md section 1, derived there from R62, R181 and R182). -/
def Obligations.ResponseTopByteIsOneOfFive : Prop :=
  ∀ (w : Word56) (s t : State), accept w s = .next t →
    t.cfc.rspBuf.extractLsb' 48 8 ∈ ([0x00, 0x50, 0x60, 0x70, 0x80] : List Byte)

/-- 20_memory.md R47: CFG.WRITE alone changes state beyond the response buffer, and it is idempotent; every response is a
function of the request word and CRC_EN, and issuing a request again gives the same response. -/
def Obligations.RequestsArePureButForCfgWrite : Prop :=
  (∀ (w : Word56) (s t : State), accept w s = .next t → opcField w ≠ 0x20 →
    t = { s with cfc := { s.cfc with rspFull := true, rspBuf := t.cfc.rspBuf } }) ∧
  (∀ (w : Word56) (s t u : State), accept w s = .next t → accept w t = .next u → u = t) ∧
  (∀ (w : Word56) (s s' t t' : State), accept w s = .next t → accept w s' = .next t' → s.cfc.crcEn = s'.cfc.crcEn →
    t.cfc = t'.cfc)

/-! ### Steps, handshake, reset -/

/-- Neither an operation nor a clock edge ever stops the machine: the CFC raises no exception and takes no trap
(60_exceptions.md section 1). -/
def Obligations.TheMachineNeverStops : Prop :=
  (∀ (i : Instr) (s : State), ∃ t, exec i s = .next t) ∧ ∀ s : State, ∃ t, step s = .next t

/-- When the word on the request port transfers and decodes to an operation, the step is that operation's meaning, after the
inputs of the edge are used up, one more edge has passed and the transaction is dated by this edge (10_state.md sections 3
and 4). -/
def Obligations.StepRunsTheDecodedOperation : Prop :=
  ∀ (s : State) (i : Instr), s.pins.rst = false → s.pins.reqValid = true → s.cfc.rspFull = false →
    decode s.pins.reqData = .op i →
      step s = exec i { s with inputs := s.inputs.tail, cycle := s.cycle + 1, acceptCycle := s.cycle }

/-- 10_state.md R29: when `req_ready` is 1, what a transfer is, and that `req_valid` and `req_data` are ignored at any other
edge, so that an offered request may change or be withdrawn. -/
def Obligations.RequestHandshake : Prop :=
  (∀ s : State, (s.portOut Config.pLatency).reqReady = true ↔ s.pins.rst = false ∧ s.cfc.rspFull = false) ∧
  (∀ s : State, s.pins.reqValid = true → (s.portOut Config.pLatency).reqReady = true →
    step s = accept s.pins.reqData s.transferTick) ∧
  (∀ (s : State) (p q : PortIn) (l : List PortIn), p.rst = q.rst → p.rspReady = q.rspReady →
    ({ s with inputs := p :: l } : State).requestTransfers = false →
    ({ s with inputs := q :: l } : State).requestTransfers = false →
      step { s with inputs := p :: l } = step { s with inputs := q :: l })

/-- The response handshake: `rsp_valid` rises in the `P_LATENCY`-th cycle after the transfer edge and stays until the response
transfers, `rsp_data` is RSP_BUF all that time, and the transfer clears RSP_FULL; no request transfers at that edge
(10_state.md R30). Two points are the model's reading: `rsp_valid` is 0 in a cycle with `rst` = 1, by 70_reset_and_hazards.md
R212 over R30's 'stays 1 until the response transfers' (log 10, DEDUCED), and the cycle right after the transfer edge counts
as the first (log 4, DEDUCED). -/
def Obligations.ResponseHandshake : Prop :=
  (∀ s : State, s.cfc.rspFull = false → (s.portOut Config.pLatency).rspValid = false) ∧
  (∀ (k : Nat) (s u t : State), s.requestTransfers = true → step s = .next u →
    run k u = .next t → noReset k u → (∀ p ∈ u.inputs.take k, p.rspReady = false) →
      t.cfc.rspFull = true ∧ t.cfc.rspBuf = u.cfc.rspBuf ∧
      ((t.portOut Config.pLatency).rspValid = true ↔ t.pins.rst = false ∧ Config.pLatency ≤ k + 1) ∧
      ((t.portOut Config.pLatency).rspValid = true → (t.portOut Config.pLatency).rspData = u.cfc.rspBuf)) ∧
  (∀ s t : State, (s.portOut Config.pLatency).rspValid = true → s.pins.rspReady = true → step s = .next t →
    t.cfc.rspFull = false ∧ t.cfc.crcEn = s.cfc.crcEn ∧ t.delivered = s.delivered ++ [(s.portOut Config.pLatency).rspData] ∧
      s.requestTransfers = false)

/-- 10_state.md R26: RSP_FULL is set at the edge a request transfers, with the response that request and CFG at that edge
fix; it is cleared when the response transfers; while it is set no request is accepted; a response is never overwritten or
dropped, except by reset. -/
def Obligations.ResponseBufferLifetime : Prop :=
  ∀ s t : State, step s = .next t →
    (s.requestTransfers = true →
      t.cfc.rspFull = true ∧ t.cfc.rspBuf = (txnExec s.cfc.crcEn s.pins.reqData).2) ∧
    (s.responseTransfers Config.pLatency = true → t.cfc.rspFull = false) ∧
    (s.cfc.rspFull = true → s.requestTransfers = false ∧
      (s.pins.rst = false → t.delivered ++ t.pending = s.delivered ++ s.pending)) ∧
    (s.cfc.rspFull = false → s.requestTransfers = false → t.cfc.rspFull = false)

/-- A request offered while the CFC is busy is not lost: if the host still offers it at the edge after the response
transfers, it transfers there, and no request transfers at the edge of the response (70_reset_and_hazards.md section 3). -/
def Obligations.WaitingRequestTransfersAfterTheResponse : Prop :=
  ∀ (s t : State) (p q : PortIn) (l : List PortIn), s.inputs = p :: q :: l → s.responseTransfers Config.pLatency = true →
    p.reqValid = true → q.reqValid = true → q.rst = false → q.reqData = p.reqData → step s = .next t →
      s.requestTransfers = false ∧ t.requestTransfers = true ∧ step t = accept p.reqData t.transferTick

/-- 10_state.md R31: the reset values, whatever RSP_BUF holds and whatever the host drives. -/
def Obligations.ResetValues : Prop :=
  ∀ (b : Word56) (l : List PortIn) (latency : Nat),
    let s : State := { State.reset with inputs := l, cfc := { State.reset.cfc with rspBuf := b } }
    s.cfc.crcEn = true ∧ s.cfc.cfg.extractLsb' 1 7 = 0 ∧ s.cfc.rspFull = false ∧
      (s.portOut latency).reqReady = !s.pins.rst ∧ (s.portOut latency).rspValid = false

/-- 70_reset_and_hazards.md R211: what a reset edge does, that no request transfers on it, and that everything delivered
afterwards answers a request that transferred after it. -/
def Obligations.ResetEdgeDiscardsTheTransaction : Prop :=
  ∀ s t : State, s.pins.rst = true → step s = .next t →
    t = { s with
      cfc := { crcEn := true, rspFull := false, rspBuf := t.cfc.rspBuf }, inputs := s.inputs.tail, cycle := s.cycle + 1 } ∧
    s.requestTransfers = false ∧
    ∀ (k : Nat) (u : State), noReset k t → run k t = .next u →
      u.delivered ++ u.pending = s.delivered ++ responsesInOrder true (transfers k t)

/-- 70_reset_and_hazards.md R212: during reset neither channel is live, and the first request can transfer at the first edge
with `rst` = 0. -/
def Obligations.PortsDuringReset : Prop :=
  ∀ s : State, s.pins.rst = true →
    (s.portOut Config.pLatency).reqReady = false ∧ (s.portOut Config.pLatency).rspValid = false ∧
    ∀ t : State, step s = .next t → t.pins.rst = false →
      (t.portOut Config.pLatency).reqReady = true ∧ (t.pins.reqValid = true → t.requestTransfers = true)

/-- CRC_EN changes only at a reset edge, or at the transfer of a CFG.WRITE, which sets it to bit 0 of the first payload byte
(10_state.md section 2, 42_control.md). -/
def Obligations.OnlyCfgWriteOrResetChangesCrcEn : Prop :=
  ∀ s t : State, step s = .next t → t.cfc.crcEn ≠ s.cfc.crcEn →
    (s.pins.rst = true ∧ t.cfc.crcEn = true) ∨
      (s.requestTransfers = true ∧ opcField s.pins.reqData = 0x20 ∧ t.cfc.crcEn = s.pins.reqData.getLsbD 40)

/-! ### Invariant, refinement, order, liveness, noninterference -/

/-- The machine's invariant holds at reset, whatever the host drives and whatever RSP_BUF holds. -/
def Obligations.InvHoldsAtReset : Prop :=
  ∀ (b : Word56) (l : List PortIn),
    Inv { State.reset with inputs := l, cfc := { State.reset.cfc with rspBuf := b } }

/-- Every step keeps the invariant: a response in flight, and every word the host has taken, is a legal response word
(30_encoding.md section 1, 60_exceptions.md section 1). -/
def Obligations.StepKeepsInv : Prop :=
  ∀ s t : State, Inv s → step s = .next t → Inv t

/-- Every run of clock edges is a run of the transaction-level relation of 10_state.md section 3: the same triple results,
the Deliver transitions return the words the host took, and the Accept transitions take the requests that transferred. -/
def Obligations.EveryRunRefinesTheTransactions : Prop :=
  ∀ (k : Nat) (s t : State), run k s = .next t →
    ∃ xs : List Txn, xs.length ≤ k ∧ Txn.applyAll xs s.cfc = some t.cfc ∧
      t.delivered = s.delivered ++ Txn.deliveries xs ∧ Txn.acceptances xs = transfers k s

/-- 20_memory.md R46: requests take effect atomically and in the order they transfer, each seeing CFG as the one before left
it, and responses are delivered in the same order, one per request. -/
def Obligations.ResponsesComeInRequestOrder : Prop :=
  (∀ (s t : State), s.requestTransfers = true → step s = .next t →
    t.cfc = { crcEn := (txnExec s.cfc.crcEn s.pins.reqData).1, rspFull := true,
              rspBuf := (txnExec s.cfc.crcEn s.pins.reqData).2 }) ∧
  ∀ (k : Nat) (s t : State), noReset k s → run k s = .next t →
    t.cfc.crcEn = crcEnAfter s.cfc.crcEn (transfers k s) ∧
    t.delivered ++ t.pending = s.delivered ++ s.pending ++ responsesInOrder s.cfc.crcEn (transfers k s)

/-- With a host that holds `rsp_ready`, the response of a request that transfers is taken exactly `P_LATENCY` edges after the
transfer edge, and not before (00_scope.md R7, 10_state.md R30). That the cycle right after the transfer edge counts as the
first, and that every request has the same latency, is the model's reading (log 4, DEDUCED). -/
def Obligations.ResponseIsTakenAfterTheLatency : Prop :=
  ∀ (s u : State) (p : PortIn) (waits rest : List PortIn), s.inputs = p :: (waits ++ rest) → s.requestTransfers = true →
    waits.length = Config.pLatency → (∀ q ∈ waits, q.rst = false ∧ q.rspReady = true) → step s = .next u →
      (∀ (k : Nat) (t : State), k < Config.pLatency → run k u = .next t →
        t.delivered = s.delivered ∧ t.cfc = u.cfc) ∧
      ∃ t, run Config.pLatency u = .next t ∧ t.inputs = rest ∧
        t.delivered = s.delivered ++ [u.cfc.rspBuf] ∧ t.cfc.rspFull = false ∧ t.cfc.crcEn = u.cfc.crcEn

/-- What RSP_BUF holds while RSP_FULL = 0 is never observable: along every run, two machines that differ in it alone drive
the same outputs, deliver the same words and keep the same CRC_EN and RSP_FULL, and once a request has transferred they are
equal (10_state.md R31, R33). For `rsp_data` the spec says so while `rsp_valid` = 1 only: while `rsp_valid` = 0 it allows any
value there (93_implementation_defined.md), and that the two copies show the same one is the model's choice, which draws it by
the count of edges (log 6, DESIGN CHOICE). -/
def Obligations.IdleResponseBufferIsUnobservable : Prop :=
  ∀ (k : Nat) (b : Word56) (s t t' : State), s.cfc.rspFull = false →
    run k s = .next t →
    run k { s with cfc := { s.cfc with rspBuf := b } } = .next t' →
      t'.portOut Config.pLatency = t.portOut Config.pLatency ∧
      t' = { t with cfc := { t.cfc with rspBuf := t'.cfc.rspBuf } } ∧
      (transfers k s ≠ [] → t' = t)

/-! ### The CRC -/

/-- 41_crc.md R130 to R133: one round, with the shift done at nine bits and cut to eight; `crc8` is exactly 8 rounds over
`data ^ crcIn`; `crcFold2` takes its bytes in order from the seed 0xFF; `crcCheck` compares the fold with the expected byte. -/
def Obligations.CrcFunctionsFollowTheirRules : Prop :=
  (∀ x : Byte, crcRound x =
    if x.getLsbD 7 = true then ((x.setWidth 9 <<< 1) &&& 0xFF).setWidth 8 ^^^ 0x31
    else ((x.setWidth 9 <<< 1) &&& 0xFF).setWidth 8) ∧
  (∀ d c : Byte, crc8 d c = crcRound^[8] (d ^^^ c)) ∧
  (∀ a b : Byte, crcFold2 a b = crc8 b (crc8 a 0xFF)) ∧
  ∀ a b e : Byte, crcCheck a b e = true ↔ crcFold2 a b = e

/-- 41_crc.md R140: the reference table is `T[i] = crc8(i, 0x00)`. -/
def Obligations.ReferenceTableIsTheLoop : Prop :=
  ∀ i : Byte, crcTable i = crc8 i 0x00

/-- The CRC update is linear in its two bytes and a bijection of their exclusive OR (41_crc.md section 3). -/
def Obligations.CrcUpdateIsLinearAndBijective : Prop :=
  (∀ d c d' c' : Byte, crc8 (d ^^^ d') (c ^^^ c') = crc8 d c ^^^ crc8 d' c') ∧
  ∀ c v : Byte, ∃ d, crc8 d c = v ∧ ∀ d', crc8 d' c = v → d' = d

/-- The residue form: continuing the fold over the CRC byte gives 0x00 exactly when that byte is the CRC, so checking a
triplet is folding all three of its bytes to 0x00 (41_crc.md section 3). -/
def Obligations.CrcResidueIsZeroExactlyOnMatch : Prop :=
  (∀ e c : Byte, crc8 e c = 0x00 ↔ e = c) ∧
  ∀ a b e : Byte, crcCheck a b e = true ↔ crc8 e (crcFold2 a b) = 0x00

/-- Each CRC value is reached by exactly one second byte for every first byte, and by exactly one first byte for every second
byte: by 256 pairs (41_crc.md section 3). -/
def Obligations.EachCrcValueIsReachedByOneByteOfEach : Prop :=
  (∀ a v : Byte, ∃ b, crcFold2 a b = v ∧ ∀ b', crcFold2 a b' = v → b' = b) ∧
  ∀ b v : Byte, ∃ a, crcFold2 a b = v ∧ ∀ a', crcFold2 a' b = v → a' = a

/-- Every single-bit error, every double-bit error and every burst of length 8 or less in a valid 24-bit triplet fails its
check, and with CRC_EN = 1 DEC.FLOW rejects the corrupted frame and delivers no value (41_crc.md section 3,
40_frame_codec.md section 3). -/
def Obligations.CorruptedFlowFramesAreRejected : Prop :=
  ∀ (a b : Byte) (e : BitVec 24),
    ((∃ i, i < 24 ∧ e = 1#24 <<< i) ∨
      (∃ i j, i < j ∧ j < 24 ∧ e = 1#24 <<< i ^^^ 1#24 <<< j) ∨
      (∃ (m : Byte) (k : Nat), m ≠ 0 ∧ k ≤ 16 ∧ e = m.setWidth 24 <<< k)) →
    let c0 : Byte := a ^^^ e.extractLsb' 16 8
    let c1 : Byte := b ^^^ e.extractLsb' 8 8
    let c2 : Byte := crcFold2 a b ^^^ e.extractLsb' 0 8
    crcCheck c0 c1 c2 = false ∧
    ∀ s : State, s.cfc.crcEn = true →
      exec (.decFlow c0 c1 c2) s = .next { s with cfc := { s.cfc with rspFull := true, rspBuf := 0x50000000000000 } }

/-! ### Several instances, assembly -/

/-- 60_exceptions.md R193: a system holds `P_NUM_INSTANCES` instances, each started at its own reset; an edge at one instance
is that instance's own step and leaves every other as it was, and edges at two instances commute. -/
def Obligations.InstancesShareNothing : Prop :=
  System.reset.cfcs.length = Config.pNumInstances ∧ 1 ≤ Config.pNumInstances ∧
  (∀ s ∈ System.reset.cfcs, s = State.reset) ∧
  (∀ (k : Nat) (y z : System), System.stepAt k y = .next z →
    z.cfcs.length = y.cfcs.length ∧ (∀ j, j ≠ k → z.cfcs[j]? = y.cfcs[j]?) ∧
    ∀ s t, y.cfcs[k]? = some s → step s = .next t → z.cfcs[k]? = some t) ∧
  (∀ (j k : Nat) (y y1 y2 z : System), j ≠ k → System.stepAt j y = .next y1 → System.stepAt k y1 = .next z →
    System.stepAt k y = .next y2 → System.stepAt j y2 = .next z)

/-- 30_encoding.md R72: each pseudo-instruction expands to exactly one request, its expansion's. -/
def Obligations.PseudoInstructionsExpand : Prop :=
  assembleLine "cmd.start" = assembleLine "cmd.build 0" ∧ assembleLine "cmd.start" = some 0x01000000000000 ∧
  assembleLine "cmd.softreset" = assembleLine "cmd.build 1" ∧ assembleLine "cmd.softreset" = some 0x01010000000000 ∧
  assembleLine "cmd.serial" = assembleLine "cmd.build 2" ∧ assembleLine "cmd.serial" = some 0x01020000000000 ∧
  assembleLine "crc.on" = assembleLine "cfg.write 1" ∧ assembleLine "crc.on" = some 0x20010000000000 ∧
  assembleLine "crc.off" = assembleLine "cfg.write 0" ∧ assembleLine "crc.off" = some 0x20000000000000 ∧
  ∀ d : Byte, asmByteOperation "crc.first".toList [d] = asmByteOperation "crc.step".toList [d, 0xFF] ∧
    asmByteOperation "crc.first".toList [d] = some (.crcStep d 0xFF)

/-- Every operand value is read from both its numerals, and every mnemonic, each operand in either numeral and independently of
the others, is its operation with those operands; `cmd.build` with each kind name is its operation too (30_encoding.md R71; the hexadecimal digits are in capitals, log 15 on
their letter case). -/
def Obligations.AssemblyReadsEveryOperand : Prop :=
  let num := asmNumeral
  (∀ (x : Bool) (b : Byte), asmByte (num x b) = some b) ∧
  (∀ (x : Bool) (a : Byte),
    asmOperation "cmd.build".toList [num x a] = some (.cmdBuild a) ∧
    asmOperation "cfg.write".toList [num x a] = some (.cfgWrite a)) ∧
  asmOperation "cmd.build".toList ["start".toList] = some (.cmdBuild 0) ∧
  asmOperation "cmd.build".toList ["softreset".toList] = some (.cmdBuild 1) ∧
  asmOperation "cmd.build".toList ["serial".toList] = some (.cmdBuild 2) ∧
  (∀ (x y : Bool) (a b : Byte),
    asmOperation "crc.step".toList [num x a, num y b] = some (.crcStep a b) ∧
    asmOperation "crc.pair".toList [num x a, num y b] = some (.crcPair a b)) ∧
  (∀ (x y z : Bool) (a b c : Byte),
    asmOperation "dec.flow".toList [num x a, num y b, num z c] = some (.decFlow a b c) ∧
    asmOperation "crc.check".toList [num x a, num y b, num z c] = some (.crcCheck a b c)) ∧
  (∀ (u v w x y z : Bool) (a b c d e f : Byte),
    asmOperation "dec.serial".toList [num u a, num v b, num w c, num x d, num y e, num z f] =
      some (.decSerial a b c d e f)) ∧
  asmOperation "cfg.read".toList [] = some .cfgRead
end

