-- ==== Sys2Proof/Laws/Decode.lean ====
section
/-! SUPPORT. What the fields of packed words are: one lemma per field of a request and of a response word, and when two words
are equal. -/

namespace Sys2Proof

/-- Bit `i` of a word made of a top byte and a payload. -/
theorem getLsbD_topAppend (top : Byte) (p : BitVec 48) (i : Nat) :
    (top ++ p : Word56).getLsbD i = if i < 48 then p.getLsbD i else top.getLsbD (i - 48) := by
  have h := @BitVec.getLsbD_append 8 48 i top p
  by_cases hi : i < 48
  · rw [if_pos hi]; simpa [hi] using h
  · rw [if_neg hi]; simpa [hi] using h

/-- Bit `i` of a packed payload is a bit of one of its six bytes. -/
theorem getLsbD_packPayload (p : List Byte) (i : Nat) :
    (packPayload p).getLsbD i =
      if i < 8 then (p.getD 5 0).getLsbD i
      else if i < 16 then (p.getD 4 0).getLsbD (i - 8)
      else if i < 24 then (p.getD 3 0).getLsbD (i - 16)
      else if i < 32 then (p.getD 2 0).getLsbD (i - 24)
      else if i < 40 then (p.getD 1 0).getLsbD (i - 32)
      else (p.getD 0 0).getLsbD (i - 40) := by
  have h5 := @BitVec.getLsbD_append 40 8 i (p.getD 0 0 ++ p.getD 1 0 ++ p.getD 2 0 ++ p.getD 3 0 ++ p.getD 4 0) (p.getD 5 0)
  have h4 := @BitVec.getLsbD_append 32 8 (i - 8) (p.getD 0 0 ++ p.getD 1 0 ++ p.getD 2 0 ++ p.getD 3 0) (p.getD 4 0)
  have h3 := @BitVec.getLsbD_append 24 8 (i - 8 - 8) (p.getD 0 0 ++ p.getD 1 0 ++ p.getD 2 0) (p.getD 3 0)
  have h2 := @BitVec.getLsbD_append 16 8 (i - 8 - 8 - 8) (p.getD 0 0 ++ p.getD 1 0) (p.getD 2 0)
  have h1 := @BitVec.getLsbD_append 8 8 (i - 8 - 8 - 8 - 8) (p.getD 0 0) (p.getD 1 0)
  simp only [Nat.sub_sub, Nat.reduceAdd] at h5 h4 h3 h2 h1
  refine h5.trans ?_
  split
  · rfl
  refine h4.trans ?_
  by_cases c4 : i < 16
  · rw [if_pos c4, if_pos (by omega)]
  rw [if_neg c4, if_neg (by omega)]
  refine h3.trans ?_
  by_cases c3 : i < 24
  · rw [if_pos c3, if_pos (by omega)]
  rw [if_neg c3, if_neg (by omega)]
  refine h2.trans ?_
  by_cases c2 : i < 32
  · rw [if_pos c2, if_pos (by omega)]
  rw [if_neg c2, if_neg (by omega)]
  refine h1.trans ?_
  by_cases c1 : i < 40
  · rw [if_pos c1, if_pos (by omega)]
  · rw [if_neg c1, if_neg (by omega)]

/-- The top byte of a packed word. -/
@[simp] theorem opcField_packWord (top : Byte) (p : List Byte) : opcField (packWord top p) = top := by
  refine BitVec.eq_of_getLsbD_eq fun j hj => ?_
  rw [opcField, BitVec.getLsbD_extractLsb', packWord, getLsbD_topAppend, if_neg (by omega)]
  simp [hj]

/-- Payload byte `i` of a packed word is the byte listed at `i`, and 0x00 where none is listed. -/
@[simp] theorem payloadByte_packWord (top : Byte) (p : List Byte) (i : Nat) (hi : i < 6) :
    payloadByte (packWord top p) i = p.getD i 0 := by
  refine BitVec.eq_of_getLsbD_eq fun j hj => ?_
  rw [payloadByte, BitVec.getLsbD_extractLsb', packWord, getLsbD_topAppend, if_pos (by omega), getLsbD_packPayload]
  obtain rfl | rfl | rfl | rfl | rfl | rfl : i = 0 ∨ i = 1 ∨ i = 2 ∨ i = 3 ∨ i = 4 ∨ i = 5 := by omega
  all_goals
    repeat' first
      | rw [if_pos (by omega)]
      | rw [if_neg (by omega)]
    simp [hj]

/-- Two words are equal when their top bytes and their six payload bytes are. -/
theorem word56_ext {v w : Word56} (h : opcField v = opcField w)
    (hp : ∀ i, i < 6 → payloadByte v i = payloadByte w i) : v = w := by
  refine BitVec.eq_of_getLsbD_eq fun j hj => ?_
  by_cases h48 : j < 48
  · have h0 := congrArg (fun b : Byte => b.getLsbD (j % 8)) (hp (5 - j / 8) (by omega))
    simp only [payloadByte, BitVec.getLsbD_extractLsb'] at h0
    have e : 40 - 8 * (5 - j / 8) + j % 8 = j := by omega
    have l : j % 8 < 8 := by omega
    simpa [e, l] using h0
  · have h0 := congrArg (fun b : Byte => b.getLsbD (j - 48)) h
    simp only [opcField, BitVec.getLsbD_extractLsb'] at h0
    have e : 48 + (j - 48) = j := by omega
    have l : j - 48 < 8 := by omega
    simpa [e, l] using h0

/-- Two packed words are equal when their top bytes and their payloads, read with 0x00 where nothing is listed, are. -/
theorem packWord_congr {t u : Byte} {p q : List Byte} (h : t = u) (hp : ∀ i, i < 6 → p.getD i 0 = q.getD i 0) :
    packWord t p = packWord u q :=
  word56_ext (by simpa using h) fun i hi => by simpa [hi] using hp i hi

/-- The OPC of an encoded operation is the one of its row (30_encoding.md R60, R64). -/
@[simp] theorem opcField_encode (i : Instr) : opcField (encode i) = i.opc := opcField_packWord _ _

namespace Machine

/-- A field of the top byte of a word is that field of the word. -/
theorem extractLsb'_opcField (w : Word56) (k n : Nat) (h : k + n ≤ 8) :
    (opcField w).extractLsb' k n = w.extractLsb' (48 + k) n := by
  refine BitVec.eq_of_getLsbD_eq fun j hj => ?_
  have h8 : k + j < 8 := by omega
  simp [opcField, hj, h8, Nat.add_assoc]

/-- STATUS of the top byte of a response. -/
theorem responseTop_status (st : Status) (m : BitVec 2) : (responseTop st m).extractLsb' 6 2 = st.code := by
  revert m
  cases st <;> decide

/-- FAILMASK of the top byte of a response. -/
theorem responseTop_failmask (st : Status) (m : BitVec 2) : (responseTop st m).extractLsb' 4 2 = m := by
  revert m
  cases st <;> decide

/-- The reserved bits of the top byte of a response. -/
theorem responseTop_reserved (st : Status) (m : BitVec 2) : (responseTop st m).extractLsb' 0 4 = 0 := by
  revert m
  cases st <;> decide

/-- STATUS of a packed response. -/
@[simp] theorem statusField_packResponse (st : Status) (m : BitVec 2) (q : List Byte) :
    statusField (packResponse st m q) = st.code := by
  rw [statusField, ← extractLsb'_opcField _ 6 2 (by omega), packResponse, opcField_packWord, responseTop_status]

/-- FAILMASK of a packed response. -/
@[simp] theorem failmaskField_packResponse (st : Status) (m : BitVec 2) (q : List Byte) :
    failmaskField (packResponse st m q) = m := by
  rw [failmaskField, ← extractLsb'_opcField _ 4 2 (by omega), packResponse, opcField_packWord, responseTop_failmask]

/-- The reserved bits of a packed response are 0. -/
@[simp] theorem reservedField_packResponse (st : Status) (m : BitVec 2) (q : List Byte) :
    reservedField (packResponse st m q) = 0 := by
  rw [reservedField, ← extractLsb'_opcField _ 0 4 (by omega), packResponse, opcField_packWord, responseTop_reserved]

/-- The result bytes of a packed response. -/
@[simp] theorem resultField_packResponse (st : Status) (m : BitVec 2) (q : List Byte) :
    resultField (packResponse st m q) = packPayload q := by
  refine BitVec.eq_of_getLsbD_eq fun j hj => ?_
  rw [resultField, BitVec.getLsbD_extractLsb', packResponse, packWord, getLsbD_topAppend, if_pos (by omega)]
  simp [hj]

/-- The payload of a word all of whose result bytes are 0x00. -/
@[simp] theorem packPayload_nil : packPayload [] = 0 := by decide

/-- Bit `i` of an OK word is a bit of one of its result bytes, and 0 in the top byte (30_encoding.md R62, R63). -/
theorem getLsbD_okWord (q0 q1 q2 q3 q4 q5 : Byte) (i : Nat) :
    (okWord q0 q1 q2 q3 q4 q5).getLsbD i =
      if i < 48 then (packPayload [q0, q1, q2, q3, q4, q5]).getLsbD i else false := by
  rw [getLsbD_packPayload]
  simp only [okWord, BitVec.getLsbD_or, BitVec.getLsbD_shiftLeft, BitVec.getLsbD_setWidth]
  by_cases c : i < 48
  · rw [if_pos c]
    interval_cases i <;> simp
  · rw [if_neg c]
    simp [show ¬ i < 40 by omega, show ¬ i < 32 by omega, show ¬ i < 24 by omega, show ¬ i < 16 by omega,
      show ¬ i < 8 by omega, show 8 ≤ i - 40 by omega, show 8 ≤ i - 32 by omega, show 8 ≤ i - 24 by omega,
      show 8 ≤ i - 16 by omega, show 8 ≤ i - 8 by omega, show 8 ≤ i by omega]

/-- An OK response written byte by byte is the packed response of those bytes (30_encoding.md R62). -/
theorem okWord_eq_packResponse (q0 q1 q2 q3 q4 q5 : Byte) :
    okWord q0 q1 q2 q3 q4 q5 = packResponse .ok 0 [q0, q1, q2, q3, q4, q5] := by
  refine BitVec.eq_of_getLsbD_eq fun i _ => ?_
  rw [getLsbD_okWord, packResponse, packWord, getLsbD_topAppend, show responseTop .ok 0 = 0 by decide]
  simp

end Machine

end Sys2Proof
end

