-- ==== Sys2Proof/Laws/Operands.lean ====
section
/-! SUPPORT. What the operand forms give: the bytes of split frames, and the cases of the command-frame table. -/

namespace Sys2Proof.Machine

/-- The bytes of a flow frame's value are its first two bytes (40_frame_codec.md R102). -/
theorem splitFlow_bytes (b0 b1 b2 : Byte) :
    (splitFlow b0 b1 b2).1.extractLsb' 8 8 = b0 ∧ (splitFlow b0 b1 b2).1.extractLsb' 0 8 = b1 ∧
      (splitFlow b0 b1 b2).2 = b2 := by
  have h := fun i => @BitVec.getLsbD_append 8 8 i b0 b1
  refine ⟨BitVec.eq_of_getLsbD_eq fun j hj => ?_, BitVec.eq_of_getLsbD_eq fun j hj => ?_, rfl⟩
  all_goals
    rw [BitVec.getLsbD_extractLsb', splitFlow, h]
    simp [hj]

/-- The bytes of a serial frame's identifier are bytes 0, 1, 3 and 4; bytes 2 and 5 are the CRC bytes (40_frame_codec.md
R103, R106). -/
theorem splitSerial_bytes (b0 b1 b2 b3 b4 b5 : Byte) :
    (splitSerial b0 b1 b2 b3 b4 b5).1.extractLsb' 24 8 = b0 ∧ (splitSerial b0 b1 b2 b3 b4 b5).1.extractLsb' 16 8 = b1 ∧
      (splitSerial b0 b1 b2 b3 b4 b5).1.extractLsb' 8 8 = b3 ∧ (splitSerial b0 b1 b2 b3 b4 b5).1.extractLsb' 0 8 = b4 ∧
      (splitSerial b0 b1 b2 b3 b4 b5).2 = (b2, b5) := by
  have h3 := fun i => @BitVec.getLsbD_append 24 8 i (b0 ++ b1 ++ b3) b4
  have h2 := fun i => @BitVec.getLsbD_append 16 8 i (b0 ++ b1) b3
  have h1 := fun i => @BitVec.getLsbD_append 8 8 i b0 b1
  refine ⟨BitVec.eq_of_getLsbD_eq fun j hj => ?_, BitVec.eq_of_getLsbD_eq fun j hj => ?_,
    BitVec.eq_of_getLsbD_eq fun j hj => ?_, BitVec.eq_of_getLsbD_eq fun j hj => ?_, rfl⟩
  all_goals rw [BitVec.getLsbD_extractLsb', splitSerial, h3]
  · rw [if_neg (by omega), h2, if_neg (by omega), h1, if_neg (by omega)]
    simp [hj, Nat.sub_sub]
  · rw [if_neg (by omega), h2, if_neg (by omega), h1, if_pos (by omega)]
    simp [hj, Nat.sub_sub]
  · rw [if_neg (by omega), h2, if_pos (by omega)]
    simp [hj]
  · rw [if_pos (by omega)]
    simp [hj]

/-- The command-frame table gives a frame exactly for KIND 0, 1 and 2 (40_frame_codec.md R100). -/
theorem cmdFrame_isSome_iff (kind : Byte) : (cmdFrame kind).isSome = true ↔ kind.toNat ≤ 2 := by
  revert kind
  decide

end Sys2Proof.Machine
end

