-- ==== Sys2Proof/Laws/State.lean ====
section
/-! SUPPORT. One lemma per field per update of State, so that no later proof unfolds a record update. -/

namespace Sys2Proof.Machine

/-! ### respond -/

@[simp] theorem respond_crcEn (s : State) (st : Status) (m : BitVec 2) (q : List Byte) :
    (s.respond st m q).cfc.crcEn = s.cfc.crcEn := rfl

@[simp] theorem respond_rspFull (s : State) (st : Status) (m : BitVec 2) (q : List Byte) :
    (s.respond st m q).cfc.rspFull = true := rfl

@[simp] theorem respond_rspBuf (s : State) (st : Status) (m : BitVec 2) (q : List Byte) :
    (s.respond st m q).cfc.rspBuf = packResponse st m q := rfl

@[simp] theorem respond_cycle (s : State) (st : Status) (m : BitVec 2) (q : List Byte) :
    (s.respond st m q).cycle = s.cycle := rfl

@[simp] theorem respond_acceptCycle (s : State) (st : Status) (m : BitVec 2) (q : List Byte) :
    (s.respond st m q).acceptCycle = s.acceptCycle := rfl

@[simp] theorem respond_inputs (s : State) (st : Status) (m : BitVec 2) (q : List Byte) :
    (s.respond st m q).inputs = s.inputs := rfl

@[simp] theorem respond_delivered (s : State) (st : Status) (m : BitVec 2) (q : List Byte) :
    (s.respond st m q).delivered = s.delivered := rfl

@[simp] theorem respondError_eq_respond (s : State) (st : Status) (m : BitVec 2) :
    s.respondError st m = s.respond st m [] := rfl

/-! ### writeCfg -/

@[simp] theorem writeCfg_crcEn (s : State) (v : Byte) : (s.writeCfg v).cfc.crcEn = v.getLsbD 0 := rfl

@[simp] theorem writeCfg_rspFull (s : State) (v : Byte) : (s.writeCfg v).cfc.rspFull = s.cfc.rspFull := rfl

@[simp] theorem writeCfg_rspBuf (s : State) (v : Byte) : (s.writeCfg v).cfc.rspBuf = s.cfc.rspBuf := rfl

@[simp] theorem writeCfg_cycle (s : State) (v : Byte) : (s.writeCfg v).cycle = s.cycle := rfl

@[simp] theorem writeCfg_acceptCycle (s : State) (v : Byte) : (s.writeCfg v).acceptCycle = s.acceptCycle := rfl

@[simp] theorem writeCfg_inputs (s : State) (v : Byte) : (s.writeCfg v).inputs = s.inputs := rfl

@[simp] theorem writeCfg_delivered (s : State) (v : Byte) : (s.writeCfg v).delivered = s.delivered := rfl

/-! ### deliver -/

@[simp] theorem deliver_crcEn (s : State) : s.deliver.cfc.crcEn = s.cfc.crcEn := rfl

@[simp] theorem deliver_rspFull (s : State) : s.deliver.cfc.rspFull = false := rfl

@[simp] theorem deliver_rspBuf (s : State) : s.deliver.cfc.rspBuf = s.cfc.rspBuf := rfl

@[simp] theorem deliver_cycle (s : State) : s.deliver.cycle = s.cycle := rfl

@[simp] theorem deliver_acceptCycle (s : State) : s.deliver.acceptCycle = s.acceptCycle := rfl

@[simp] theorem deliver_inputs (s : State) : s.deliver.inputs = s.inputs := rfl

@[simp] theorem deliver_delivered (s : State) : s.deliver.delivered = s.delivered ++ [s.cfc.rspBuf] := rfl

/-! ### resetEdge -/

@[simp] theorem resetEdge_crcEn (s : State) : s.resetEdge.cfc.crcEn = true := rfl

@[simp] theorem resetEdge_rspFull (s : State) : s.resetEdge.cfc.rspFull = false := rfl

@[simp] theorem resetEdge_rspBuf (s : State) : s.resetEdge.cfc.rspBuf = s.cfc.rspBuf := rfl

@[simp] theorem resetEdge_cycle (s : State) : s.resetEdge.cycle = s.cycle := rfl

@[simp] theorem resetEdge_acceptCycle (s : State) : s.resetEdge.acceptCycle = s.acceptCycle := rfl

@[simp] theorem resetEdge_inputs (s : State) : s.resetEdge.inputs = s.inputs := rfl

@[simp] theorem resetEdge_delivered (s : State) : s.resetEdge.delivered = s.delivered := rfl

/-! ### tick and transferTick -/

@[simp] theorem tick_cfc (s : State) : s.tick.cfc = s.cfc := rfl

@[simp] theorem tick_cycle (s : State) : s.tick.cycle = s.cycle + 1 := rfl

@[simp] theorem tick_acceptCycle (s : State) : s.tick.acceptCycle = s.acceptCycle := rfl

@[simp] theorem tick_inputs (s : State) : s.tick.inputs = s.inputs.tail := rfl

@[simp] theorem tick_delivered (s : State) : s.tick.delivered = s.delivered := rfl

@[simp] theorem transferTick_cfc (s : State) : s.transferTick.cfc = s.cfc := rfl

@[simp] theorem transferTick_cycle (s : State) : s.transferTick.cycle = s.cycle + 1 := rfl

@[simp] theorem transferTick_acceptCycle (s : State) : s.transferTick.acceptCycle = s.cycle := rfl

@[simp] theorem transferTick_inputs (s : State) : s.transferTick.inputs = s.inputs.tail := rfl

@[simp] theorem transferTick_delivered (s : State) : s.transferTick.delivered = s.delivered := rfl

/-! ### offerRequest and the pins -/

@[simp] theorem offerRequest_pins (s : State) (w : Word56) :
    (s.offerRequest w).pins = { reqValid := true, reqData := w } := rfl

@[simp] theorem offerRequest_rspFull (s : State) (w : Word56) : (s.offerRequest w).cfc.rspFull = false := rfl

@[simp] theorem offerRequest_crcEn (s : State) (w : Word56) : (s.offerRequest w).cfc.crcEn = s.cfc.crcEn := rfl

theorem pins_of_inputs_cons {s : State} {p : PortIn} {l : List PortIn} (h : s.inputs = p :: l) : s.pins = p := by
  simp [State.pins, h]

theorem pins_of_inputs_nil {s : State} (h : s.inputs = []) : s.pins = {} := by
  simp [State.pins, h]

end Sys2Proof.Machine
end

