-- ==== Sys2Proof/Laws/Ops.lean ====
section
/-! SUPPORT. What each shared operation can do, said once: if it answers a next state, then which. Later proofs cite these
lemmas instead of unfolding the operation. -/

namespace Sys2Proof.Machine

/-! ### Responses -/

/-- A response word formed from a status, a failure mask and result bytes is legal when the mask is 0b00 exactly where the
status is no mismatch, and an error carries no result byte. -/
theorem legalResponse_packResponse {st : Status} {m : BitVec 2} {q : List Byte} (hm : st = .crcMismatch ↔ m ≠ 0)
    (hq : st ≠ .ok → q = []) : legalResponse (packResponse st m q) = true := by
  cases st
  · have : m = 0 := by simpa using hm
    subst this
    simp [legalResponse, Status.code]
  · have hne : m ≠ 0 := by simpa using hm
    have : q = [] := hq (by decide)
    subst this
    simpa [legalResponse, Status.code] using hne
  · have h0 : m = 0 := by simpa using hm
    have : q = [] := hq (by decide)
    subst this
    simp [legalResponse, Status.code, h0]

/-- A flow frame's failure mask names triplet 0 exactly when it failed. -/
theorem flowFailmask_eq (ok : Bool) : flowFailmask ok = if ok then 0 else 1 := by cases ok <;> decide

/-- A serial frame's failure mask is 0b00 exactly when both halves passed. -/
theorem serialFailmask_ne_zero (ok0 ok1 : Bool) : serialFailmask ok0 ok1 ≠ 0 ↔ (!ok0 || !ok1) = true := by
  cases ok0 <;> cases ok1 <;> decide

/-! ### Meanings -/

/-- What every meaning does: it answers a next state, which differs in CRC_EN and the response buffer alone. -/
theorem exec_answers (i : Instr) (s : State) :
    ∃ e r, exec i s = .next { s with cfc := { crcEn := e, rspFull := true, rspBuf := r } } := by
  cases i with
  | cmdBuild k =>
    simp only [exec, execCmdBuild]
    split <;> exact ⟨_, _, rfl⟩
  | decFlow b0 b1 b2 =>
    simp only [exec, execDecFlow, splitFlow]
    split <;> exact ⟨_, _, rfl⟩
  | decSerial b0 b1 b2 b3 b4 b5 =>
    simp only [exec, execDecSerial, splitSerial]
    split <;> exact ⟨_, _, rfl⟩
  | crcStep _ _ => exact ⟨_, _, rfl⟩
  | crcPair _ _ => exact ⟨_, _, rfl⟩
  | crcCheck _ _ _ => exact ⟨_, _, rfl⟩
  | cfgWrite _ => exact ⟨_, _, rfl⟩
  | cfgRead => exact ⟨_, _, rfl⟩

/-- A meaning that answers a next state changes CRC_EN and the response buffer alone, and leaves the buffer full. -/
theorem exec_frame {i : Instr} {s t : State} (h : exec i s = .next t) :
    t = { s with cfc := { crcEn := t.cfc.crcEn, rspFull := true, rspBuf := t.cfc.rspBuf } } := by
  obtain ⟨e, r, he⟩ := exec_answers i s
  rw [he] at h
  cases h
  rfl

/-! ### Accept -/

/-- What Accept does: the operation decoded is executed, or the word's OPC is unassigned and the error response is made. -/
theorem accept_cases (req : Word56) (s : State) :
    (∃ i, decode req = .op i ∧ accept req s = exec i s) ∨
      (∃ o, decode req = .unassignedOpc o ∧ accept req s = .next (s.respondError .illegalRequest 0)) := by
  unfold accept
  cases h : decode req with
  | op i => exact .inl ⟨i, rfl, rfl⟩
  | unassignedOpc o => exact .inr ⟨o, rfl, rfl⟩

/-- Accept answers a next state, which differs in CRC_EN and the response buffer alone. -/
theorem accept_answers (req : Word56) (s : State) :
    ∃ e r, accept req s = .next { s with cfc := { crcEn := e, rspFull := true, rspBuf := r } } := by
  obtain ⟨i, -, h⟩ | ⟨o, -, h⟩ := accept_cases req s
  · rw [h]
    exact exec_answers i s
  · exact ⟨_, _, h⟩

/-- Accept that answers a next state changes CRC_EN and the response buffer alone, and leaves the buffer full. -/
theorem accept_frame {req : Word56} {s t : State} (h : accept req s = .next t) :
    t = { s with cfc := { crcEn := t.cfc.crcEn, rspFull := true, rspBuf := t.cfc.rspBuf } } := by
  obtain ⟨e, r, he⟩ := accept_answers req s
  rw [he] at h
  cases h
  rfl

/-! ### The ports -/

/-- A request transfers exactly when it is offered, `rst` = 0 and nothing is in flight (10_state.md R29). -/
theorem requestTransfers_iff (s : State) :
    s.requestTransfers = true ↔ s.pins.reqValid = true ∧ s.pins.rst = false ∧ s.cfc.rspFull = false := by
  simp [State.requestTransfers, State.reqReady]

/-- A response is offered exactly when `rst` = 0, one is in flight and its latency has passed (10_state.md R30). -/
theorem rspValid_iff (latency : Nat) (s : State) :
    s.rspValid latency = true ↔ s.pins.rst = false ∧ s.cfc.rspFull = true ∧ s.acceptCycle + latency ≤ s.cycle := by
  simp [State.rspValid, and_assoc]

/-- A response transfers exactly when it is offered and the host takes it (10_state.md R30). -/
theorem responseTransfers_iff (latency : Nat) (s : State) :
    s.responseTransfers latency = true ↔ s.rspValid latency = true ∧ s.pins.rspReady = true := by
  simp [State.responseTransfers]

/-! ### One clock edge -/

/-- What a clock edge can do: it is a reset edge, a request transfer, a response transfer, or none of them (10_state.md R27,
70_reset_and_hazards.md R217). -/
theorem clockEdge_cases {latency : Nat} {s t : State} (h : clockEdge latency s = .next t) :
    (s.pins.rst = true ∧ t = s.resetEdge.tick) ∨
      (s.pins.rst = false ∧ s.requestTransfers = true ∧ accept s.pins.reqData s.transferTick = .next t) ∨
      (s.pins.rst = false ∧ s.requestTransfers = false ∧ s.responseTransfers latency = true ∧ t = s.deliver.tick) ∨
      (s.pins.rst = false ∧ s.requestTransfers = false ∧ s.responseTransfers latency = false ∧ t = s.tick) := by
  unfold clockEdge at h
  split at h
  case isTrue hr =>
    cases h
    exact .inl ⟨hr, rfl⟩
  case isFalse hr =>
    have hr : s.pins.rst = false := by simpa using hr
    split at h
    case isTrue hq => exact .inr (.inl ⟨hr, hq, h⟩)
    case isFalse hq =>
      have hq : s.requestTransfers = false := by simpa using hq
      split at h
      case isTrue hp =>
        cases h
        exact .inr (.inr (.inl ⟨hr, hq, hp, rfl⟩))
      case isFalse hp =>
        cases h
        exact .inr (.inr (.inr ⟨hr, hq, by simpa using hp, rfl⟩))

/-- An edge at which a response transfers delivers it: no reset, and no request transfer, falls on that edge. -/
theorem clockEdge_of_responseTransfers {latency : Nat} {s : State} (h : s.responseTransfers latency = true) :
    clockEdge latency s = .next s.deliver.tick := by
  obtain ⟨hv, -⟩ := (responseTransfers_iff _ _).1 h
  obtain ⟨hr, hf, -⟩ := (rspValid_iff _ _).1 hv
  have hq : s.requestTransfers = false := by simp [State.requestTransfers, State.reqReady, hf]
  simp [clockEdge, hr, hq, h]

/-- A step is a clock edge at the implementation's latency. -/
theorem step_eq_clockEdge (s : State) : step s = clockEdge Config.pLatency s := rfl

/-- A run of no step. -/
@[simp] theorem run_zero (s : State) : run 0 s = .next s := rfl

/-- A run whose first step answers a next state goes on from it. -/
theorem run_of_step {k : Nat} {s t : State} (h : step s = .next t) : run (k + 1) s = run k t := by
  simp only [run, h]

/-- The requests that transfer along a run whose first step answers a next state. -/
theorem transfers_of_step {k : Nat} {s t : State} (h : step s = .next t) :
    transfers (k + 1) s = (if s.requestTransfers then [s.pins.reqData] else []) ++ transfers k t := by
  simp [transfers, h]

/-! ### Several instances -/

/-- An edge at an instance replaces that instance by its own next state (60_exceptions.md R193). -/
theorem stepAt_of_step {k : Nat} {y : System} {s t : State} (hs : y.cfcs[k]? = some s) (h : step s = .next t) :
    System.stepAt k y = .next { y with cfcs := y.cfcs.set k t } := by
  simp [System.stepAt, hs, h]

end Sys2Proof.Machine
end

