-- ==== Sys2Proof/Laws/PerInstr.lean ====
section
/-! SUPPORT. Families of statements made per instruction. -/

namespace Sys2Proof.Laws.OpcodeField

/-- The encoded word carries the operation's OPC in bits 55:48, and its low 48 bits are the operands in order with 0x00 in
every byte not listed (30_encoding.md R60, R64, R71). -/
def Statement (i : Instr) : Prop :=
  opcField (encode i) = i.opc ∧ ∀ n, n < 6 → payloadByte (encode i) n = i.operands.getD n 0

theorem cmdBuild (kind : Byte) : Statement (.cmdBuild kind) :=
  ⟨opcField_packWord _ _, fun n hn => payloadByte_packWord _ _ n hn⟩

theorem decFlow (b0 b1 b2 : Byte) : Statement (.decFlow b0 b1 b2) :=
  ⟨opcField_packWord _ _, fun n hn => payloadByte_packWord _ _ n hn⟩

theorem decSerial (b0 b1 b2 b3 b4 b5 : Byte) : Statement (.decSerial b0 b1 b2 b3 b4 b5) :=
  ⟨opcField_packWord _ _, fun n hn => payloadByte_packWord _ _ n hn⟩

theorem crcStep (data crcIn : Byte) : Statement (.crcStep data crcIn) :=
  ⟨opcField_packWord _ _, fun n hn => payloadByte_packWord _ _ n hn⟩

theorem crcPair (in1 in2 : Byte) : Statement (.crcPair in1 in2) :=
  ⟨opcField_packWord _ _, fun n hn => payloadByte_packWord _ _ n hn⟩

theorem crcCheck (in1 in2 exp : Byte) : Statement (.crcCheck in1 in2 exp) :=
  ⟨opcField_packWord _ _, fun n hn => payloadByte_packWord _ _ n hn⟩

theorem cfgWrite (val : Byte) : Statement (.cfgWrite val) :=
  ⟨opcField_packWord _ _, fun n hn => payloadByte_packWord _ _ n hn⟩

theorem cfgRead : Statement .cfgRead :=
  ⟨opcField_packWord _ _, fun n hn => payloadByte_packWord _ _ n hn⟩

end Sys2Proof.Laws.OpcodeField
end

