-- ==== Sys2Proof/WellFormed.lean ====
section
/-! DEFINITION. Which operations are legal requests (30_encoding.md R66, R68). The machine runs the others too: they get the
ILLEGAL_REQUEST response (R68), so nothing rests on well-formedness to run. -/

namespace Sys2Proof

/-- An operation is well formed when its encoding is legal: the one illegal encoding with an assigned OPC is CMD.BUILD with
KIND outside 0, 1 and 2 (30_encoding.md R68; log 19). -/
def Instr.wellFormed : Instr → Bool
  | .cmdBuild kind => kind.toNat ≤ 2
  | .decFlow _ _ _ => true
  | .decSerial _ _ _ _ _ _ => true
  | .crcStep _ _ => true
  | .crcPair _ _ => true
  | .crcCheck _ _ _ => true
  | .cfgWrite _ => true
  | .cfgRead => true

end Sys2Proof
end

