-- ==== Sys2Proof/Tests/Slice0.lean ====
section
/-! SUPPORT. The model's own tests: decoding of written-out words, the spec's test vectors (95_test_vectors.md), single clock
edges, and, for each statement with hypotheses, a concrete state and operands that meet them. -/

namespace Sys2Proof.Tests

open Sys2Proof.Machine

/-- The next state of an outcome. -/
def nextOf : Host.Outcome State Fault Refusal → Option State
  | .next s => some s
  | .fault _ => none
  | .refused _ => none

/-- The state right after reset but for CRC_EN. -/
def withCrcEn (e : Bool) : State := { State.reset with cfc := { Cfc.reset with crcEn := e } }

/-- The response word an accepted request leaves. -/
def answer (e : Bool) (w : Word56) : Option Word56 := (nextOf (accept w (withCrcEn e))).map (fun t => t.cfc.rspBuf)

/-- The state right after reset with inputs placed. -/
def withInputs (l : List PortIn) : State := { State.reset with inputs := l }

/-- A state with a response in flight since cycle 0. -/
def busy (cycle : Nat) (l : List PortIn) : State :=
  { State.reset with cfc := { crcEn := true, rspFull := true, rspBuf := 0x0031AE00000000 }, cycle := cycle, inputs := l }

/-! ### WellFormed -/

theorem test_wellFormed_refuses_kind_three : (Instr.cmdBuild 3).wellFormed = false := by decide
theorem test_wellFormed_accepts_kind_two : (Instr.cmdBuild 2).wellFormed = true := by decide

/-! ### Decoding: words written out field by field from 30_encoding.md R60, R64 and R66 -/

theorem test_decode_cmdBuild :
    decode 0b00000001_00000010_00000000_00000000_00000000_00000000_00000000 = .op (.cmdBuild 2) := by decide
theorem test_decode_decFlow :
    decode 0b00000010_01111101_10001100_11111101_00000000_00000000_00000000 = .op (.decFlow 0x7D 0x8C 0xFD) := by decide
theorem test_decode_decSerial :
    decode 0b00000011_10101010_10111011_11000101_11001100_11011101_11010111 =
      .op (.decSerial 0xAA 0xBB 0xC5 0xCC 0xDD 0xD7) := by decide
theorem test_decode_crcStep :
    decode 0b00010000_10111110_11111111_00000000_00000000_00000000_00000000 = .op (.crcStep 0xBE 0xFF) := by decide
theorem test_decode_crcPair :
    decode 0b00010001_10111110_11101111_00000000_00000000_00000000_00000000 = .op (.crcPair 0xBE 0xEF) := by decide
theorem test_decode_crcCheck :
    decode 0b00010010_00010000_00000000_11101111_00000000_00000000_00000000 = .op (.crcCheck 0x10 0x00 0xEF) := by decide
theorem test_decode_cfgWrite :
    decode 0b00100000_00000011_00000000_00000000_00000000_00000000_00000000 = .op (.cfgWrite 3) := by decide
theorem test_decode_cfgRead :
    decode 0b00100001_00000000_00000000_00000000_00000000_00000000_00000000 = .op .cfgRead := by decide
/-- 95_test_vectors.md 2.8: the unassigned OPC values at the edges of the ranges of R68. -/
theorem test_decode_refuses_unassigned :
    ([0x00, 0x04, 0x0F, 0x13, 0x1F, 0x22, 0x80, 0xFF] : List Byte).all
      (fun o => decode (packWord o [0x11, 0x22]) == .unassignedOpc o) = true := by decide
theorem test_decodeTableWord_reads_the_row : decodeTableWord 56 0x03000000000000 = some (.decSerial 0 0 0 0 0 0) := by decide
theorem test_decodeTableWord_refuses : decodeTableWord 56 0x22000000000000 = none := by decide

/-! ### The operations (95_test_vectors.md section 2) -/

theorem test_cmdBuild_serial : answer true 0x01020000000000 = some 0x0031AE00000000 := by decide
theorem test_cmdBuild_kind_three : answer true 0x01030000000000 = some 0x80000000000000 := by decide
theorem test_decFlow_valid_and_dont_care : answer true 0x027D00FAFFFFFF = some 0x007D00FA000000 := by decide
theorem test_decFlow_bad_crc :
    answer true 0x027D00FB000000 = some 0x50000000000000 ∧ answer false 0x027D00FB000000 = some 0x007D00FB000000 := by decide
theorem test_decSerial_skips_byte_two : answer true 0x03BEEF92123437 = some 0x00BEEF12349237 := by decide
theorem test_decSerial_failed_halves :
    answer true 0x03AABBC4CCDDD7 = some 0x50000000000000 ∧ answer true 0x03AABBC5CCDDD6 = some 0x60000000000000 ∧
    answer true 0x03AABB00CCDD00 = some 0x70000000000000 ∧ answer false 0x03AABB00CCDD00 = some 0x00AABBCCDD0000 := by decide
theorem test_crcStep_top_and_low_bit :
    answer true 0x10800000000000 = some 0x007A0000000000 ∧ answer true 0x10010000000000 = some 0x00310000000000 := by decide
/-- 41_crc.md R139 item 9: the CRC of the ASCII string "123456789" is 0xF7. -/
theorem test_crc_check_string :
    ([0x31, 0x32, 0x33, 0x34, 0x35, 0x36, 0x37, 0x38, 0x39] : List Byte).foldl (fun c d => crc8 d c) 0xFF = 0xF7 := by
  decide +kernel
/-- 41_crc.md R139 item 5: the fixed points of the round are exactly 0x00 and 0xEF. -/
theorem test_crcRound_fixed_points : ∀ x : Byte, crcRound x = x ↔ x = 0x00 ∨ x = 0xEF := by decide
theorem test_crcPair_order_matters :
    answer true 0x11000100000000 = some 0x00B00000000000 ∧ answer true 0x11010000000000 = some 0x00750000000000 := by decide
theorem test_crcCheck_both_ways :
    answer false 0x12123437FFFFFF = some 0x00010000000000 ∧ answer false 0x12BEEF93000000 = some 0 := by decide
theorem test_cfgWrite_uses_bit_zero :
    ((nextOf (accept 0x20FE0000000000 (withCrcEn true))).map (fun t => t.cfc.crcEn) = some false) ∧
    ((nextOf (accept 0x20030000000000 (withCrcEn false))).map (fun t => t.cfc.crcEn) = some true) := by decide
theorem test_cfgRead_both_values :
    answer true 0x21000000000000 = some 0x00010000000000 ∧ answer false 0x21000000000000 = some 0 := by decide
theorem test_illegal_request_leaves_crcEn :
    nextOf (accept 0x22010000000000 (withCrcEn false)) =
      some { withCrcEn false with cfc := { crcEn := false, rspFull := true, rspBuf := 0x80000000000000 } } := by decide

/-! ### Clock edges (95_test_vectors.md 2.9, P_LATENCY = 1, and a longer latency) -/

theorem test_edge_accepts :
    (nextOf (clockEdge 1 (withInputs [{ reqValid := true, reqData := 0x21000000000000 }]))).map
      (fun t => (t.cfc.rspFull, t.portOut 1)) =
        some (true, { reqReady := false, rspValid := true, rspData := 0x00010000000000 }) := by decide
theorem test_edge_holds_the_waiting_request :
    (nextOf (clockEdge 1 (busy 1 [{ reqValid := true }]))).map (fun t => (t.cfc, t.delivered)) =
      some ((busy 1 []).cfc, []) := by decide
theorem test_edge_delivers :
    (nextOf (clockEdge 1 (busy 1 [{ reqValid := true, rspReady := true }]))).map
      (fun t => (t.cfc.rspFull, t.reqReady, t.delivered)) = some (false, true, [0x0031AE00000000]) := by decide
theorem test_edge_waits_for_the_latency :
    (nextOf (clockEdge 3 (busy 2 [{ rspReady := true }]))).map (fun t => (t.cfc.rspFull, t.rspValid 3)) =
      some (true, true) := by decide
theorem test_edge_reset_discards :
    (nextOf (clockEdge 1 (busy 1 [{ rst := true, reqValid := true, rspReady := true }, { rst := true }]))).map
      (fun t => (t.cfc.crcEn, t.cfc.rspFull, t.reqReady, t.delivered)) = some (true, false, false, []) := by decide
theorem test_step_runs_the_fetched_word :
    (nextOf (step (State.reset.withFetchWord 56 0x01020000000000))).map (fun t => t.cfc.rspBuf) =
      some 0x0031AE00000000 := by decide

/-! ### Assembly (30_encoding.md R71, 95_test_vectors.md section 3) -/

theorem test_assemble_serial_with_comment :
    assembleLine "dec.serial 0xAA, 0xBB, 0xC5, 0xCC, 0xDD, 214 ; bad" = some 0x03AABBC5CCDDD6 := by decide
theorem test_assemble_kind_raw_and_refused :
    assembleLine "cmd.build softreset" = some 0x01010000000000 ∧ assembleLine ".req 0x04112200000000" = some 0x04112200000000 ∧
    assembleLine "crc.pair 256, 0" = none ∧ assembleLine "cmd.build 0x3, 1" = none := by decide
theorem test_response_text : responseText 0x0031AE00000000 = "-> 0x0031AE00000000".toList := by decide

/-! ### Witnesses: what meets the hypotheses of each statement -/

theorem witness_EncodeOfDecodeClearsUnlistedBytes : decode 0x0100ABCDEF1234 = .op (.cmdBuild 0) := by decide

theorem witness_DecodingIsTotalAndByOpcAlone :
    ([0x01, 0x02, 0x03, 0x10, 0x11, 0x12, 0x20, 0x21] : List Byte).all
      (fun o => (packWord o []).extractLsb' 48 8 == o) = true ∧
    ([0x00, 0x04, 0x0F, 0x13, 0x1F, 0x22, 0xFF] : List Byte).all
      (fun o => decide ((packWord o []).extractLsb' 48 8 ∉ ([0x01, 0x02, 0x03, 0x10, 0x11, 0x12, 0x20, 0x21] : List Byte))) =
      true := by decide

/-- Illegal words at the ends of each range, and legal ones beside them. -/
theorem witness_IllegalRequestsGetOnlyTheErrorResponse :
    ([0x00112200000000, 0x04112200000000, 0x0F112200000000, 0x13112200000000, 0x1F112200000000, 0x22112200000000,
      0xFF112200000000, 0x01030000000000, 0x01FF0000000000] : List Word56).all
        (fun w => answer true w == some 0x80000000000000) = true ∧
    ([0x01020000000000, 0x03000000000000, 0x12000000000000, 0x20000000000000, 0x21000000000000] : List Word56).all
        (fun w => (answer true w).map statusField != some 2) = true := by decide

theorem witness_DontCareBitsMakeNoDifference :
    ([(0x01020000000000, 0x0102FFFFFFFFFF), (0x20010000000000, 0x20FFFFFFFFFFFF), (0x22000000000000, 0x22FFFFFFFFFFFF)] :
      List (Word56 × Word56)).all
        (fun p => p.1 &&& readMask (opcField p.1) == p.2 &&& readMask (opcField p.1)) = true := by decide

theorem witness_CrcPairAnswersTheSeededFold :
    ∃ t u, exec (Instr.crcFirst 0xBE) State.reset = .next t ∧
      exec (.crcStep 0xEF (payloadByte t.cfc.rspBuf 0)) t = .next u := ⟨_, _, rfl, rfl⟩

theorem witness_StatusCausesByOperation_unassigned : decode 0x22112200000000 = .unassignedOpc 0x22 := by decide

theorem witness_StatusCausesByOperation :
    ((nextOf (exec (.cmdBuild 3) State.reset)).map (fun t => statusField t.cfc.rspBuf) = some 2) ∧
    ((nextOf (exec (.cmdBuild 255) State.reset)).map (fun t => statusField t.cfc.rspBuf) = some 2) ∧
    ((nextOf (exec (.cmdBuild 2) State.reset)).map (fun t => statusField t.cfc.rspBuf) = some 0) ∧
    ((nextOf (exec (.decFlow 0 0 0) State.reset)).map (fun t => statusField t.cfc.rspBuf) = some 1) ∧
    ((nextOf (exec (.decSerial 0 0 0x81 0 0 0) State.reset)).map (fun t => statusField t.cfc.rspBuf) = some 1) ∧
    ((nextOf (exec (.decSerial 0 0 0x81 0 0 0x81) State.reset)).map (fun t => statusField t.cfc.rspBuf) = some 0) := by decide

theorem witness_FailmaskNamesTheFailedTriplets :
    answer true 0x03000000000000 = some 0x70000000000000 ∧ answer true 0x02000000000000 = some 0x50000000000000 ∧
    answer false 0x03000000000000 = some 0x00000000000000 := by decide

theorem witness_FrameIntegrity :
    ((nextOf (exec (.decFlow 0 0 0x81) State.reset)).map (fun t => statusField t.cfc.rspBuf) = some 0) ∧
    ((nextOf (exec (.decSerial 0 0 0x81 0 0 0x81) State.reset)).map (fun t => statusField t.cfc.rspBuf) = some 0) ∧
    ((nextOf (exec (.decFlow 0 0 0) State.reset)).map (fun t => statusField t.cfc.rspBuf) = some 1) ∧
    State.reset.cfc.crcEn = true := by decide

theorem witness_SerialIdSkipsByteTwo :
    ∃ t, exec (.decSerial 0xAA 0xBB 0xC5 0xCC 0xDD 0xD7) State.reset = .next t ∧ statusField t.cfc.rspBuf = 0 :=
  ⟨_, rfl, by decide⟩

theorem witness_CrcEnGovernsFrameRejectionOnly :
    (∃ t t', exec (.crcStep 1 2) (withCrcEn true) = .next t ∧ exec (.crcStep 1 2) (withCrcEn false) = .next t') ∧
    (∃ t t', exec (.decFlow 0 0 0x81) (withCrcEn true) = .next t ∧ exec (.decFlow 0 0 0x81) (withCrcEn false) = .next t' ∧
      statusField t.cfc.rspBuf = statusField t'.cfc.rspBuf) :=
  ⟨⟨_, _, rfl, rfl⟩, ⟨_, _, rfl, rfl, by decide⟩⟩

theorem witness_ResponseTopByteIsOneOfFive : ∃ t, accept 0x21000000000000 State.reset = .next t := ⟨_, rfl⟩

theorem witness_RequestsArePureButForCfgWrite :
    (∃ t, accept 0x21000000000000 State.reset = .next t ∧ opcField 0x21000000000000 ≠ 0x20) ∧
    (∃ t u, accept 0x20000000000000 State.reset = .next t ∧ accept 0x20000000000000 t = .next u) ∧
    (∃ t t', accept 0x02000000000000 (withCrcEn false) = .next t ∧
      accept 0x02000000000000 { withCrcEn false with cycle := 9 } = .next t') :=
  ⟨⟨_, rfl, by decide⟩, ⟨_, _, rfl, rfl⟩, ⟨_, _, rfl, rfl⟩⟩

theorem witness_StepRunsTheDecodedOperation :
    let s := State.reset.withFetchWord 56 0x21000000000000
    s.pins.rst = false ∧ s.pins.reqValid = true ∧ s.cfc.rspFull = false ∧ decode s.pins.reqData = .op .cfgRead := by decide

theorem witness_RequestHandshake_transfer :
    let s := State.reset.withFetchWord 56 0x21000000000000
    s.pins.reqValid = true ∧ s.reqReady = true := by decide

theorem witness_RequestHandshake_withdrawn :
    let p : PortIn := { reqValid := true, reqData := 0x21000000000000 }
    let q : PortIn := {}
    p.rst = q.rst ∧ p.rspReady = q.rspReady ∧ ({ busy 1 [] with inputs := [p] } : State).requestTransfers = false ∧
      ({ busy 1 [] with inputs := [q] } : State).requestTransfers = false := by decide

/-- A response offered in the present cycle, whatever the latency is. -/
theorem busy_rspValid (p : PortIn) (l : List PortIn) (h : p.rst = false) :
    (busy Config.pLatency (p :: l)).rspValid Config.pLatency = true := by
  simp [State.rspValid, State.pins, busy, State.reset, h]

theorem witness_ResponseHandshake_idle : State.reset.cfc.rspFull = false := by decide

/-- A step with a request offered to an idle machine answers a next state. -/
theorem fetch_step : ∃ u, step (State.reset.withFetchWord 56 0x21000000000000) = .next u ∧ u.inputs = [] ∧
    u.cfc.rspFull = true := ⟨_, rfl, rfl, rfl⟩

/-- With no edge after the transfer edge, and with one. -/
theorem witness_ResponseHandshake_offered :
    let s := State.reset.withFetchWord 56 0x21000000000000
    ∃ u t, s.requestTransfers = true ∧ step s = .next u ∧ run 0 u = .next u ∧ noReset 0 u ∧
      noReset 1 u ∧ (∀ p ∈ u.inputs.take 1, p.rspReady = false) ∧ run 1 u = .next t := by
  obtain ⟨u, hu, hi, hf⟩ := fetch_step
  have hp : u.pins = {} := pins_of_inputs_nil hi
  refine ⟨u, u.tick, by decide, hu, rfl, by simp [noReset], by simp [noReset, hi], by simp [hi], ?_⟩
  have h : step u = .next u.tick := by
    simp [step, clockEdge, hp, State.requestTransfers, State.responseTransfers]
  rw [run_of_step h, run_zero]

theorem witness_ResponseHandshake_taken :
    let s := busy Config.pLatency [{ rspReady := true }]
    (s.portOut Config.pLatency).rspValid = true ∧ s.pins.rspReady = true ∧ step s = .next s.deliver.tick := by
  have hv := busy_rspValid { rspReady := true } [] rfl
  exact ⟨hv, rfl, clockEdge_of_responseTransfers ((responseTransfers_iff _ _).2 ⟨hv, rfl⟩)⟩

/-- Its clauses: a request transfers, a response transfers, one in flight, none in flight and none offered. -/
theorem witness_ResponseBufferLifetime :
    (State.reset.withFetchWord 56 0x21000000000000).requestTransfers = true ∧
    (∃ u, step (State.reset.withFetchWord 56 0x21000000000000) = .next u) ∧
    (busy Config.pLatency [{ rspReady := true }]).responseTransfers Config.pLatency = true ∧
    (busy Config.pLatency [{ rspReady := true }]).cfc.rspFull = true ∧
    (busy Config.pLatency [{ rspReady := true }]).pins.rst = false ∧
    (∃ u, step (busy Config.pLatency [{ rspReady := true }]) = .next u) ∧
    State.reset.requestTransfers = false ∧ (∃ u, step State.reset = .next u) := by
  obtain ⟨hv, hr, hs⟩ := witness_ResponseHandshake_taken
  exact ⟨rfl, ⟨_, rfl⟩, (responseTransfers_iff _ _).2 ⟨hv, hr⟩, rfl, rfl, ⟨_, hs⟩, rfl, ⟨_, rfl⟩⟩

theorem witness_WaitingRequestTransfersAfterTheResponse :
    let p : PortIn := { reqValid := true, reqData := 0x21000000000000, rspReady := true }
    let q : PortIn := { reqValid := true, reqData := 0x21000000000000 }
    let s := busy Config.pLatency [p, q]
    s.inputs = p :: q :: [] ∧ s.responseTransfers Config.pLatency = true ∧ p.reqValid = true ∧ q.reqValid = true ∧
      q.rst = false ∧ q.reqData = p.reqData ∧ ∃ t, step s = .next t := by
  have hv := busy_rspValid { reqValid := true, reqData := 0x21000000000000, rspReady := true }
    [{ reqValid := true, reqData := 0x21000000000000 }] rfl
  have ht := (responseTransfers_iff Config.pLatency (busy Config.pLatency _)).2 ⟨hv, rfl⟩
  exact ⟨rfl, ht, rfl, rfl, rfl, rfl, _, clockEdge_of_responseTransfers ht⟩

theorem witness_ResetEdgeDiscardsTheTransaction :
    let s := busy 1 [{ rst := true }, { reqValid := true, reqData := 0x21000000000000 }]
    s.pins.rst = true ∧ ∃ t u, step s = .next t ∧ noReset 1 t ∧ run 1 t = .next u ∧
      transfers 1 t = [0x21000000000000] :=
  ⟨rfl, _, _, rfl, by simp [noReset, busy, State.resetEdge, State.tick], rfl, rfl⟩

theorem witness_PortsDuringReset :
    let s := busy 1 [{ rst := true }, { reqValid := true }]
    s.pins.rst = true ∧ ∃ t, step s = .next t ∧ t.pins.rst = false ∧ t.pins.reqValid = true := ⟨rfl, _, rfl, rfl, rfl⟩

theorem witness_OnlyCfgWriteOrResetChangesCrcEn :
    (∃ t, step (State.reset.withFetchWord 56 0x20000000000000) = .next t ∧ t.cfc.crcEn ≠ State.reset.cfc.crcEn) ∧
    (∃ t, step { withCrcEn false with inputs := [{ rst := true }] } = .next t ∧ t.cfc.crcEn ≠ (withCrcEn false).cfc.crcEn) :=
  ⟨⟨_, rfl, by decide⟩, ⟨_, rfl, by decide⟩⟩

/-- With a response in flight, and with one taken. -/
theorem witness_StepKeepsInv :
    (Inv (busy 1 [{ rst := true }]) ∧ ∃ t, step (busy 1 [{ rst := true }]) = .next t) ∧
    (Inv { State.reset with delivered := [0x50000000000000] } ∧
      ∃ t, step { State.reset with delivered := [0x50000000000000] } = .next t) := by
  refine ⟨⟨⟨fun _ => ⟨by decide, by decide⟩, by simp [busy, State.reset]⟩, _, rfl⟩, ⟨⟨by decide, ?_⟩, _, rfl⟩⟩
  intro w hw
  obtain rfl : w = 0x50000000000000 := by simpa using hw
  decide

theorem witness_EveryRunRefinesTheTransactions :
    ∃ t, run 1 (State.reset.withFetchWord 56 0x21000000000000) = .next t := ⟨_, rfl⟩

theorem witness_ResponsesComeInRequestOrder :
    let s := State.reset.withFetchWord 56 0x21000000000000
    s.requestTransfers = true ∧ noReset 1 s ∧ transfers 1 s ≠ [] ∧
      ∃ t, step s = .next t ∧ run 1 s = .next t :=
  ⟨rfl, by simp [noReset, State.withFetchWord, State.offerRequest], by decide, _, rfl, rfl⟩

theorem witness_ResponseIsTakenAfterTheLatency :
    let p : PortIn := { reqValid := true, reqData := 0x21000000000000 }
    let waits : List PortIn := List.replicate Config.pLatency { rspReady := true }
    let s := withInputs (p :: (waits ++ []))
    s.inputs = p :: (waits ++ []) ∧ s.requestTransfers = true ∧ waits.length = Config.pLatency ∧
      (∀ q ∈ waits, q.rst = false ∧ q.rspReady = true) ∧ 0 < Config.pLatency ∧
      ∃ u, step s = .next u ∧ run 0 u = .next u := by
  refine ⟨rfl, rfl, List.length_replicate, ?_, Nat.succ_pos _, _, rfl, rfl⟩
  intro q hq
  obtain rfl := List.eq_of_mem_replicate hq
  exact ⟨rfl, rfl⟩

theorem witness_IdleResponseBufferIsUnobservable :
    let s := State.reset.withFetchWord 56 0x21000000000000
    s.cfc.rspFull = false ∧ transfers 1 s ≠ [] ∧ ∃ t t', run 1 s = .next t ∧
      run 1 { s with cfc := { s.cfc with rspBuf := 0x50000000000000 } } = .next t' :=
  ⟨rfl, by decide, _, _, rfl, rfl⟩

/-- Each kind of error at the ends of its range. -/
theorem witness_CorruptedFlowFramesAreRejected :
    (∃ i, i < 24 ∧ (0x800000 : BitVec 24) = 1#24 <<< i) ∧ (∃ i, i < 24 ∧ (1 : BitVec 24) = 1#24 <<< i) ∧
    (∃ i j, i < j ∧ j < 24 ∧ (0x800001 : BitVec 24) = 1#24 <<< i ^^^ 1#24 <<< j) ∧
    (∃ (m : Byte) (k : Nat), m ≠ 0 ∧ k ≤ 16 ∧ (0xFF0000 : BitVec 24) = m.setWidth 24 <<< k) ∧
    State.reset.cfc.crcEn = true :=
  ⟨⟨23, by decide, by decide⟩, ⟨0, by decide, by decide⟩, ⟨0, 23, by decide, by decide, by decide⟩,
    ⟨0xFF, 16, by decide, by decide, by decide⟩, rfl⟩

theorem witness_InstancesShareNothing :
    let y : System := { cfcs := [State.reset.withFetchWord 56 0x21000000000000, State.reset] }
    ∃ y1 y2 z, (0 : Nat) ≠ 1 ∧ System.stepAt 0 y = .next y1 ∧ System.stepAt 1 y1 = .next z ∧
      System.stepAt 1 y = .next y2 ∧ (∃ s t, y.cfcs[0]? = some s ∧ step s = .next t) :=
  ⟨_, _, _, by decide, rfl, rfl, rfl, _, _, rfl, rfl⟩

end Sys2Proof.Tests
end

section
/-! SUPPORT. What each operation answers: CRC_EN and the response word after it. `opAnswer` says it once per operation;
`exec_eq_opAnswer` ties it to the machine's meanings and `txnExec_of_decode_op` to the spec's layout tables, so that Accept is
the transaction relation's `txnExec` (`accept_eq_txnExec`). -/

namespace Sys2Proof.Proofs

open Sys2Proof Sys2Proof.Machine

/-! ### The CRC by the table -/

/-- Eight rounds are one look-up in the reference table (41_crc.md R140). -/
theorem crcRounds_eight_eq_crcTable (x : Byte) : crcRounds 8 x = crcTable x := by
  revert x
  decide

/-- A CRC update by the reference table (41_crc.md R139 item 1). -/
theorem crc8_eq_crcTable (d c : Byte) : crc8 d c = crcTable (d ^^^ c) := crcRounds_eight_eq_crcTable _

/-- The seeded fold by the reference table (41_crc.md R139 item 4). -/
theorem crcFold2_eq_tableFold2 (a b : Byte) : crcFold2 a b = tableFold2 a b := by
  simp only [crcFold2, tableFold2, crc8_eq_crcTable, crcSeed, BitVec.xor_comm b]

/-- A check fails exactly when the fold is not the expected byte (41_crc.md R133). -/
theorem crcCheck_eq_false_iff (a b e : Byte) : crcCheck a b e = false ↔ crcFold2 a b ≠ e := by
  simp [crcCheck]

/-! ### Response words -/

/-- An OK response is the word of its six result bytes, 0x00 where none is listed (30_encoding.md R62, R63). -/
theorem packResponse_ok (q : List Byte) :
    packResponse .ok 0 q =
      okWord (q.getD 0 0) (q.getD 1 0) (q.getD 2 0) (q.getD 3 0) (q.getD 4 0) (q.getD 5 0) := by
  rw [okWord_eq_packResponse]
  refine packWord_congr rfl fun i hi => ?_
  interval_cases i <;> rfl

/-- The CRC_MISMATCH word of a flow frame (30_encoding.md R76, 60_exceptions.md R182). -/
theorem packResponse_flowMismatch : packResponse .crcMismatch (flowFailmask false) [] = 0x50000000000000 := by decide

/-- The CRC_MISMATCH word of a serial frame, by the halves that failed (30_encoding.md R76, 60_exceptions.md R182). -/
theorem packResponse_serialMismatch (ok0 ok1 : Bool) (h : (ok0 && ok1) = false) :
    packResponse .crcMismatch (serialFailmask ok0 ok1) [] =
      if ok1 then 0x50000000000000 else if ok0 then 0x60000000000000 else 0x70000000000000 := by
  revert ok0 ok1
  decide

/-! ### Decoding -/

/-- Every word decodes to one of the eight operations, on the payload bytes that operation reads, or its OPC is none of
theirs (30_encoding.md R65, R66). -/
theorem decode_cases (req : Word56) :
    (opcField req = 0x01 ∧ decode req = .op (.cmdBuild (payloadByte req 0))) ∨
    (opcField req = 0x02 ∧ decode req = .op (.decFlow (payloadByte req 0) (payloadByte req 1) (payloadByte req 2))) ∨
    (opcField req = 0x03 ∧ decode req = .op (.decSerial (payloadByte req 0) (payloadByte req 1) (payloadByte req 2)
      (payloadByte req 3) (payloadByte req 4) (payloadByte req 5))) ∨
    (opcField req = 0x10 ∧ decode req = .op (.crcStep (payloadByte req 0) (payloadByte req 1))) ∨
    (opcField req = 0x11 ∧ decode req = .op (.crcPair (payloadByte req 0) (payloadByte req 1))) ∨
    (opcField req = 0x12 ∧ decode req = .op (.crcCheck (payloadByte req 0) (payloadByte req 1) (payloadByte req 2))) ∨
    (opcField req = 0x20 ∧ decode req = .op (.cfgWrite (payloadByte req 0))) ∨
    (opcField req = 0x21 ∧ decode req = .op .cfgRead) ∨
    (opcField req ∉ ([0x01, 0x02, 0x03, 0x10, 0x11, 0x12, 0x20, 0x21] : List Byte) ∧
      decode req = .unassignedOpc (opcField req)) := by
  by_cases hmem : opcField req ∈ ([0x01, 0x02, 0x03, 0x10, 0x11, 0x12, 0x20, 0x21] : List Byte)
  · simp only [List.mem_cons, List.not_mem_nil, or_false] at hmem
    obtain h | h | h | h | h | h | h | h := hmem
    all_goals simp [decode, h]
  · iterate 8 refine .inr ?_
    refine ⟨hmem, ?_⟩
    simp only [List.mem_cons, List.not_mem_nil, or_false, not_or] at hmem
    obtain ⟨h1, h2, h3, h10, h11, h12, h20, h21⟩ := hmem
    simp only [decode, h1, h2, h3, h10, h11, h12, h20, h21, if_false]

/-- An OPC the decoder refuses is none of the eight assigned ones (30_encoding.md R68). -/
theorem opcField_notMem_of_unassigned {req : Word56} {o : Byte} (h : decode req = .unassignedOpc o) :
    opcField req ∉ ([0x01, 0x02, 0x03, 0x10, 0x11, 0x12, 0x20, 0x21] : List Byte) := by
  obtain ⟨-, hd⟩ | ⟨-, hd⟩ | ⟨-, hd⟩ | ⟨-, hd⟩ | ⟨-, hd⟩ | ⟨-, hd⟩ | ⟨-, hd⟩ | ⟨-, hd⟩ | ⟨hmem, -⟩ := decode_cases req
  case inr.inr.inr.inr.inr.inr.inr.inr => exact hmem
  all_goals exact nomatch hd.symm.trans h

/-! ### The answer of each operation -/

/-- The word CMD.BUILD answers, by KIND's value (30_encoding.md R68, R73). -/
def cmdWord (kind : Byte) : Word56 :=
  match kind.toNat with
  | 0 => 0x00100000000000
  | 1 => 0x00200000000000
  | 2 => 0x0031AE00000000
  | _ => 0x80000000000000

/-- The word CMD.BUILD answers is the frame of the command-frame table, or the error word where the table has none. -/
theorem cmdWord_eq_of_cmdFrame (kind : Byte) :
    cmdWord kind = ((cmdFrame kind).map fun c => okWord c.1 c.2 0 0 0 0).getD 0x80000000000000 := by
  revert kind
  decide

/-- CRC_EN after an operation and the response word it answers, from CRC_EN before it (30_encoding.md R64, R76,
60_exceptions.md R183). -/
def opAnswer (e : Bool) : Instr → Bool × Word56
  | .cmdBuild kind => (e, cmdWord kind)
  | .decFlow b0 b1 b2 =>
    (e, if e = true ∧ crcFold2 b0 b1 ≠ b2 then 0x50000000000000 else okWord b0 b1 b2 0 0 0)
  | .decSerial b0 b1 b2 b3 b4 b5 =>
    (e,
      if e = true ∧ crcFold2 b0 b1 ≠ b2 ∧ crcFold2 b3 b4 ≠ b5 then 0x70000000000000
      else if e = true ∧ crcFold2 b3 b4 ≠ b5 then 0x60000000000000
      else if e = true ∧ crcFold2 b0 b1 ≠ b2 then 0x50000000000000
      else okWord b0 b1 b3 b4 b2 b5)
  | .crcStep data crcIn => (e, okWord (crc8 data crcIn) 0 0 0 0 0)
  | .crcPair in1 in2 => (e, okWord (crcFold2 in1 in2) 0 0 0 0 0)
  | .crcCheck in1 in2 exp => (e, if crcFold2 in1 in2 = exp then 0x00010000000000 else 0x00000000000000)
  | .cfgWrite val => (val.toNat % 2 == 1, 0x00000000000000)
  | .cfgRead => (e, if e = true then 0x00010000000000 else 0x00000000000000)

/-- The state once a request is answered: CRC_EN and the response word are as given, the response buffer is full, and nothing
else differs (10_state.md R27, Accept). -/
def answered (s : State) (a : Bool × Word56) : State :=
  { s with cfc := { crcEn := a.1, rspFull := true, rspBuf := a.2 } }

/-- A response formed with CFG left alone is the answered state of its word. -/
theorem next_respond {s : State} {e : Bool} {st : Status} {m : BitVec 2} {q : List Byte} {w : Word56}
    (he : s.cfc.crcEn = e) (hw : packResponse st m q = w) :
    (.next (s.respond st m q) : Host.Outcome State Fault Refusal) = .next (answered s (e, w)) := by
  rw [← he, ← hw]
  rfl

/-- CMD.BUILD answers the frame of the table, or the error word where the table has none (40_frame_codec.md R101). -/
theorem exec_cmdBuild (kind : Byte) (s : State) :
    exec (.cmdBuild kind) s = .next (answered s (opAnswer s.cfc.crcEn (.cmdBuild kind))) := by
  simp only [exec, execCmdBuild, opAnswer, cmdWord_eq_of_cmdFrame]
  cases cmdFrame kind with
  | none => exact next_respond rfl (by decide)
  | some c => exact next_respond rfl (packResponse_ok _)

/-- DEC.FLOW answers its three bytes, or CRC_MISMATCH where CRC_EN = 1 and the check fails (40_frame_codec.md R104). -/
theorem exec_decFlow (b0 b1 b2 : Byte) (s : State) :
    exec (.decFlow b0 b1 b2) s = .next (answered s (opAnswer s.cfc.crcEn (.decFlow b0 b1 b2))) := by
  obtain ⟨hhi, hlo, -⟩ := splitFlow_bytes b0 b1 b2
  simp only [splitFlow] at hhi hlo
  simp only [exec, execDecFlow, splitFlow, hhi, hlo, opAnswer, ← crcCheck_eq_false_iff]
  generalize crcCheck b0 b1 b2 = ok
  cases he : s.cfc.crcEn with
  | false => exact next_respond he (packResponse_ok _)
  | true =>
    cases ok with
    | true => exact next_respond he (packResponse_ok _)
    | false => exact next_respond he packResponse_flowMismatch

/-- DEC.SERIAL answers the identifier and both CRC bytes, or CRC_MISMATCH naming the failed halves where CRC_EN = 1
(40_frame_codec.md R105). -/
theorem exec_decSerial (b0 b1 b2 b3 b4 b5 : Byte) (s : State) :
    exec (.decSerial b0 b1 b2 b3 b4 b5) s =
      .next (answered s (opAnswer s.cfc.crcEn (.decSerial b0 b1 b2 b3 b4 b5))) := by
  obtain ⟨h0, h1, h3, h4, -⟩ := splitSerial_bytes b0 b1 b2 b3 b4 b5
  simp only [splitSerial] at h0 h1 h3 h4
  simp only [exec, execDecSerial, splitSerial, h0, h1, h3, h4, opAnswer, ← crcCheck_eq_false_iff]
  generalize crcCheck b0 b1 b2 = ok0
  generalize crcCheck b3 b4 b5 = ok1
  cases he : s.cfc.crcEn with
  | false => exact next_respond he (packResponse_ok _)
  | true =>
    cases ok0 with
    | true =>
      cases ok1 with
      | true => exact next_respond he (packResponse_ok _)
      | false => exact next_respond he (packResponse_serialMismatch true false rfl)
    | false =>
      cases ok1 with
      | true => exact next_respond he (packResponse_serialMismatch false true rfl)
      | false => exact next_respond he (packResponse_serialMismatch false false rfl)

/-- CRC.CHECK answers 0x01 on a match and 0x00 otherwise (41_crc.md R137). -/
theorem exec_crcCheck (in1 in2 exp : Byte) (s : State) :
    exec (.crcCheck in1 in2 exp) s = .next (answered s (opAnswer s.cfc.crcEn (.crcCheck in1 in2 exp))) := by
  refine next_respond rfl ?_
  by_cases h : crcFold2 in1 in2 = exp
  · rw [crcCheck, beq_iff_eq.2 h, if_pos h]
    decide
  · rw [crcCheck, beq_eq_false_iff_ne.2 h, if_neg h]
    decide

/-- CFG.WRITE sets CRC_EN to bit 0 of VAL and answers 0 (42_control.md R161). -/
theorem exec_cfgWrite (val : Byte) (s : State) :
    exec (.cfgWrite val) s = .next (answered s (opAnswer s.cfc.crcEn (.cfgWrite val))) := by
  have hbit : val.getLsbD 0 = (val.toNat % 2 == 1) := by
    revert val
    decide
  exact next_respond (s := s.writeCfg val) hbit (by decide)

/-- CFG.READ answers CRC_EN in bit 0 of its result byte (42_control.md R162). -/
theorem exec_cfgRead (s : State) : exec .cfgRead s = .next (answered s (opAnswer s.cfc.crcEn .cfgRead)) := by
  refine next_respond rfl ?_
  rw [Cfc.cfg]
  cases s.cfc.crcEn <;> decide

/-- Each operation's meaning answers what `opAnswer` says, on every operand and in every state. -/
theorem exec_eq_opAnswer (i : Instr) (s : State) : exec i s = .next (answered s (opAnswer s.cfc.crcEn i)) := by
  cases i with
  | cmdBuild kind => exact exec_cmdBuild kind s
  | decFlow b0 b1 b2 => exact exec_decFlow b0 b1 b2 s
  | decSerial b0 b1 b2 b3 b4 b5 => exact exec_decSerial b0 b1 b2 b3 b4 b5 s
  | crcStep data crcIn => exact next_respond rfl (packResponse_ok _)
  | crcPair in1 in2 => exact next_respond rfl (packResponse_ok _)
  | crcCheck in1 in2 exp => exact exec_crcCheck in1 in2 exp s
  | cfgWrite val => exact exec_cfgWrite val s
  | cfgRead => exact exec_cfgRead s

/-! ### The transaction relation's answer -/

/-- The layout tables give, for a word that decodes to an operation, that operation's answer (30_encoding.md R64, R66). -/
theorem txnExec_of_decode_op {req : Word56} {i : Instr} (h : decode req = .op i) (e : Bool) :
    txnExec e req = opAnswer e i := by
  obtain ⟨ho, hd⟩ | ⟨ho, hd⟩ | ⟨ho, hd⟩ | ⟨ho, hd⟩ | ⟨ho, hd⟩ | ⟨ho, hd⟩ | ⟨ho, hd⟩ | ⟨ho, hd⟩ | ⟨-, hd⟩ := decode_cases req
  all_goals cases hd.symm.trans h
  all_goals
    rw [opcField] at ho
    simp only [txnExec, ho, opAnswer, cmdWord, payloadByte, crcFold2_eq_tableFold2, crc8_eq_crcTable]
    rfl

/-- The layout tables give the error word where the OPC is unassigned, and leave CRC_EN alone (30_encoding.md R68). -/
theorem txnExec_of_decode_unassigned {req : Word56} {o : Byte} (h : decode req = .unassignedOpc o) (e : Bool) :
    txnExec e req = (e, 0x80000000000000) := by
  have hno : opcField req ∉ ([0x01, 0x02, 0x03, 0x10, 0x11, 0x12, 0x20, 0x21] : List Byte) :=
    opcField_notMem_of_unassigned h
  have hne : ∀ n ∈ [1, 2, 3, 16, 17, 18, 32, 33], (req.extractLsb' 48 8).toNat ≠ n := by
    intro n hn heq
    have ho : opcField req = BitVec.ofNat 8 n := by rw [← heq, BitVec.ofNat_toNat, BitVec.setWidth_eq, opcField]
    exact hno (ho ▸ List.mem_map_of_mem (f := BitVec.ofNat 8) hn)
  unfold txnExec
  dsimp only
  split
  case h_9 => rfl
  all_goals exact absurd ‹_› (hne _ (by decide))

/-- Accept, decoder and meanings together, answers what the transaction relation's `exec` does (10_state.md R27). -/
theorem accept_eq_txnExec (req : Word56) (s : State) :
    accept req s = .next (answered s (txnExec s.cfc.crcEn req)) := by
  obtain ⟨i, hd, ha⟩ | ⟨o, hd, ha⟩ := accept_cases req s
  · rw [ha, exec_eq_opAnswer, txnExec_of_decode_op hd]
  · rw [ha, txnExec_of_decode_unassigned hd]
    exact next_respond rfl (by decide)

end Sys2Proof.Proofs
end

section
/-! SUPPORT. The handshakes: what the ports show, what each kind of clock edge does, and what a run of edges without reset and
without a response transfer leaves unchanged (10_state.md R29, R30, 70_reset_and_hazards.md R211, R212). -/

namespace Sys2Proof.Proofs

open Sys2Proof Sys2Proof.Machine

/-! ### The ports -/

@[simp] theorem portOut_reqReady (latency : Nat) (s : State) : (s.portOut latency).reqReady = s.reqReady := rfl

@[simp] theorem portOut_rspValid (latency : Nat) (s : State) : (s.portOut latency).rspValid = s.rspValid latency := rfl

/-- While `rsp_valid` = 1, `rsp_data` is RSP_BUF (10_state.md R30). -/
theorem portOut_rspData_of_rspValid {latency : Nat} {s : State} (h : s.rspValid latency = true) :
    (s.portOut latency).rspData = s.cfc.rspBuf := if_pos h

/-- `req_ready` is 1 exactly while `rst` = 0 and nothing is in flight (10_state.md R29). -/
theorem reqReady_iff (s : State) : s.reqReady = true ↔ s.pins.rst = false ∧ s.cfc.rspFull = false := by
  simp [State.reqReady]

/-- Nothing transfers on the request port while a response is in flight (10_state.md R26). -/
theorem not_requestTransfers_of_rspFull {s : State} (h : s.cfc.rspFull = true) : s.requestTransfers = false := by
  simp [State.requestTransfers, State.reqReady, h]

/-- No response is offered while none is in flight (10_state.md R30). -/
theorem not_rspValid_of_not_rspFull {latency : Nat} {s : State} (h : s.cfc.rspFull = false) :
    s.rspValid latency = false := by
  simp [State.rspValid, h]

/-- Of the inputs of an edge, `rst` and `rsp_ready` alone decide whether a response transfers (10_state.md R30). -/
theorem responseTransfers_congr_inputs (latency : Nat) (s : State) {p q : PortIn} (l : List PortIn)
    (hrst : p.rst = q.rst) (hrdy : p.rspReady = q.rspReady) :
    State.responseTransfers latency { s with inputs := p :: l } =
      State.responseTransfers latency { s with inputs := q :: l } := by
  simp [State.responseTransfers, State.rspValid, State.pins, hrst, hrdy]

/-! ### A clock edge, by its kind -/

/-- The edge of a request transfer is the Accept of the word on the port (10_state.md R29). -/
theorem clockEdge_of_requestTransfers {latency : Nat} {s : State} (h : s.requestTransfers = true) :
    clockEdge latency s = accept s.pins.reqData s.transferTick := by
  obtain ⟨-, hrst, -⟩ := (requestTransfers_iff s).1 h
  simp [clockEdge, hrst, h]

/-- An edge without a request transfer is a reset edge, a response transfer or neither (10_state.md R29). -/
theorem clockEdge_of_not_requestTransfers {latency : Nat} {s : State} (h : s.requestTransfers = false) :
    clockEdge latency s = .next (if s.pins.rst then s.resetEdge else
      if s.responseTransfers latency then s.deliver else s).tick := by
  rw [clockEdge, h]
  cases s.pins.rst <;> cases s.responseTransfers latency <;> rfl

/-- An edge at which a response waits for the host passes and changes nothing (10_state.md R30). -/
theorem clockEdge_of_waiting {latency : Nat} {s : State} (hfull : s.cfc.rspFull = true) (hrst : s.pins.rst = false)
    (hresp : s.responseTransfers latency = false) : clockEdge latency s = .next s.tick := by
  rw [clockEdge_of_not_requestTransfers (not_requestTransfers_of_rspFull hfull), hrst, hresp]
  rfl

/-- A request transfer leaves the answer of the transaction relation's `exec` in flight, dated by the edge (10_state.md R26,
R27). -/
theorem step_of_requestTransfers {s : State} (h : s.requestTransfers = true) :
    step s = .next (answered s.transferTick (txnExec s.cfc.crcEn s.pins.reqData)) :=
  (clockEdge_of_requestTransfers h).trans (accept_eq_txnExec _ _)

/-- A response transfer is a Deliver (10_state.md R27, R30). -/
theorem step_of_responseTransfers {s : State} (h : s.responseTransfers Config.pLatency = true) :
    step s = .next s.deliver.tick := clockEdge_of_responseTransfers h

/-! ### The words delivered and pending -/

theorem pending_of_rspFull {s : State} (h : s.cfc.rspFull = true) : s.pending = [s.cfc.rspBuf] := by
  simp [State.pending, h]

theorem pending_of_not_rspFull {s : State} (h : s.cfc.rspFull = false) : s.pending = [] := by
  simp [State.pending, h]

/-- A Deliver moves the pending word to the delivered ones: the words of both together stay the same. -/
theorem deliver_delivered_append_pending {s : State} (h : s.cfc.rspFull = true) :
    s.deliver.tick.delivered ++ s.deliver.tick.pending = s.delivered ++ s.pending := by
  rw [pending_of_rspFull h, pending_of_not_rspFull (s := s.deliver.tick) rfl]
  exact List.append_nil _

/-! ### Runs -/

/-- What holds of the inputs of the next edges, and of inputs at rest, holds of the pins. -/
theorem pins_of_forall_take {P : PortIn → Prop} {k : Nat} {s : State} (hrest : P {})
    (h : ∀ p ∈ s.inputs.take (k + 1), P p) : P s.pins := by
  cases hl : s.inputs with
  | nil => rwa [pins_of_inputs_nil hl]
  | cons p l =>
    rw [pins_of_inputs_cons hl]
    exact h p (by simp [hl])

/-- What holds of the inputs of the next edges holds of those left after one of them. -/
theorem forall_take_tick {P : PortIn → Prop} {k : Nat} {s : State} (h : ∀ p ∈ s.inputs.take (k + 1), P p) :
    ∀ p ∈ s.tick.inputs.take k, P p := by
  intro p hp
  cases hl : s.inputs with
  | nil => simp [hl] at hp
  | cons q l =>
    rw [tick_inputs, hl] at hp
    exact h p (by simpa [hl] using .inr hp)

/-- While a response waits, for any number of edges without reset and without `rsp_ready`, the CFC's triple and the date of the
transaction stay as they are, and only edges pass (10_state.md R26, R30). -/
theorem run_of_waiting {k : Nat} {u t : State} (hfull : u.cfc.rspFull = true) (hrst : noReset k u)
    (hrdy : ∀ p ∈ u.inputs.take k, p.rspReady = false) (hrun : run k u = .next t) :
    t.cfc = u.cfc ∧ t.acceptCycle = u.acceptCycle ∧ t.cycle = u.cycle + k := by
  induction k generalizing u with
  | zero =>
    cases hrun
    exact ⟨rfl, rfl, rfl⟩
  | succ k ih =>
    have hr : u.pins.rst = false := pins_of_forall_take (P := fun p => p.rst = false) rfl hrst
    have hy : u.pins.rspReady = false := pins_of_forall_take (P := fun p => p.rspReady = false) rfl hrdy
    have hstep : step u = .next u.tick :=
      clockEdge_of_waiting hfull hr (by simp [State.responseTransfers, hy])
    rw [run_of_step hstep] at hrun
    obtain ⟨hcfc, hacc, hcyc⟩ := ih (u := u.tick) hfull (forall_take_tick hrst) (forall_take_tick hrdy) hrun
    refine ⟨hcfc, hacc, ?_⟩
    rw [hcyc, tick_cycle]
    omega

end Sys2Proof.Proofs
end

section
/-! PROOFS. The handshakes, the lifetime of the response buffer, and the reset values (10_state.md R26, R29, R30, R31). -/

namespace Sys2Proof.Proofs

open Sys2Proof Sys2Proof.Machine

/-- An edge without a request transfer does not depend on `req_valid` and `req_data` (10_state.md R29). -/
theorem step_congr_of_not_requestTransfers (s : State) {p q : PortIn} {l : List PortIn} (hrst : p.rst = q.rst)
    (hrdy : p.rspReady = q.rspReady) (hp : State.requestTransfers { s with inputs := p :: l } = false)
    (hq : State.requestTransfers { s with inputs := q :: l } = false) :
    step { s with inputs := p :: l } = step { s with inputs := q :: l } := by
  have hpins : ∀ r : PortIn, State.pins { s with inputs := r :: l } = r := fun _ => rfl
  rw [step_eq_clockEdge, step_eq_clockEdge, clockEdge_of_not_requestTransfers hp, clockEdge_of_not_requestTransfers hq,
    responseTransfers_congr_inputs Config.pLatency s l hrst hrdy, hpins, hpins, hrst]
  cases q.rst <;> cases State.responseTransfers Config.pLatency { s with inputs := q :: l } <;> rfl

/-- Settles O25: the port equations, and the edges without a transfer by their kind. -/
theorem requestHandshake : Obligations.RequestHandshake := by
  refine ⟨reqReady_iff, fun s hvalid hready => ?_, fun s p q l hrst hrdy hp hq => ?_⟩
  · exact clockEdge_of_requestTransfers (by simpa [State.requestTransfers, hvalid] using hready)
  · exact step_congr_of_not_requestTransfers s hrst hrdy hp hq

/-- After the transfer edge and `k` waiting edges, the response is offered from the `P_LATENCY`-th cycle on, the cycle right
after the transfer edge being the first (10_state.md R30; log 4). -/
theorem response_waits_after_transfer {k : Nat} {s u t : State} (htr : s.requestTransfers = true)
    (hstep : step s = .next u) (hrun : run k u = .next t) (hrst : noReset k u)
    (hrdy : ∀ p ∈ u.inputs.take k, p.rspReady = false) :
    t.cfc.rspFull = true ∧ t.cfc.rspBuf = u.cfc.rspBuf ∧
      (t.rspValid Config.pLatency = true ↔ t.pins.rst = false ∧ Config.pLatency ≤ k + 1) := by
  rw [step_of_requestTransfers htr] at hstep
  cases hstep
  obtain ⟨hcfc, hacc, hcyc⟩ := run_of_waiting rfl hrst hrdy hrun
  have hfull : t.cfc.rspFull = true := by rw [hcfc]; rfl
  have hdate : t.acceptCycle = s.cycle := hacc
  have hnow : t.cycle = s.cycle + 1 + k := hcyc
  refine ⟨hfull, by rw [hcfc], ?_⟩
  rw [rspValid_iff, hdate, hnow]
  simp only [hfull, true_and]
  exact and_congr_right fun _ => by omega

/-- Settles O26: a waiting response stays as it is, and its transfer is a Deliver. -/
theorem responseHandshake : Obligations.ResponseHandshake := by
  refine ⟨fun s h => not_rspValid_of_not_rspFull h, fun k s u t htr hstep hrun hrst hrdy => ?_,
    fun s t hvalid hready hstep => ?_⟩
  · obtain ⟨hfull, hbuf, hvalid⟩ := response_waits_after_transfer htr hstep hrun hrst hrdy
    exact ⟨hfull, hbuf, hvalid, fun hv => (portOut_rspData_of_rspValid hv).trans hbuf⟩
  · rw [step_of_responseTransfers ((responseTransfers_iff _ _).2 ⟨hvalid, hready⟩)] at hstep
    cases hstep
    obtain ⟨-, hfull, -⟩ := (rspValid_iff _ _).1 hvalid
    refine ⟨rfl, rfl, ?_, not_requestTransfers_of_rspFull hfull⟩
    rw [portOut_rspData_of_rspValid hvalid]
    rfl

/-- With a response in flight, an edge without reset neither overwrites nor drops it (10_state.md R26). -/
theorem step_keeps_delivered_append_pending {s t : State} (hfull : s.cfc.rspFull = true) (hrst : s.pins.rst = false)
    (hstep : step s = .next t) : t.delivered ++ t.pending = s.delivered ++ s.pending := by
  cases hresp : s.responseTransfers Config.pLatency with
  | true =>
    rw [step_of_responseTransfers hresp] at hstep
    cases hstep
    exact deliver_delivered_append_pending hfull
  | false =>
    cases (clockEdge_of_waiting hfull hrst hresp).symm.trans hstep
    rfl

/-- With nothing in flight and no request transfer, nothing is in flight after the edge (10_state.md R26). -/
theorem step_keeps_not_rspFull {s t : State} (hempty : s.cfc.rspFull = false) (htr : s.requestTransfers = false)
    (hstep : step s = .next t) : t.cfc.rspFull = false := by
  obtain ⟨-, rfl⟩ | ⟨-, htr', -⟩ | ⟨-, -, -, rfl⟩ | ⟨-, -, -, rfl⟩ := clockEdge_cases hstep
  · rfl
  · exact absurd htr' (by simp [htr])
  · rfl
  · exact hempty

/-- Settles O27, by the kind of the edge; that the response is the one `txnExec` gives is `accept_eq_txnExec`. -/
theorem responseBufferLifetime : Obligations.ResponseBufferLifetime := by
  refine fun s t hstep => ⟨fun htr => ?_, fun hresp => ?_, fun hfull => ?_, fun hempty htr => ?_⟩
  · rw [step_of_requestTransfers htr] at hstep
    cases hstep
    exact ⟨rfl, rfl⟩
  · rw [step_of_responseTransfers hresp] at hstep
    cases hstep
    rfl
  · exact ⟨not_requestTransfers_of_rspFull hfull, fun hrst => step_keeps_delivered_append_pending hfull hrst hstep⟩
  · exact step_keeps_not_rspFull hempty htr hstep

/-- Bits 7:1 of CFG are 0 (10_state.md R24). -/
theorem cfg_high_bits (c : Cfc) : c.cfg.extractLsb' 1 7 = 0 := by
  rw [Cfc.cfg]
  cases c.crcEn <;> decide

/-- Settles O29: RSP_FULL = 0 alone decides both ports, up to `rst`. -/
theorem resetValues : Obligations.ResetValues := by
  intro b l latency s
  have hempty : s.cfc.rspFull = false := rfl
  refine ⟨rfl, cfg_high_bits _, hempty, ?_, not_rspValid_of_not_rspFull hempty⟩
  simp [State.reqReady, hempty]

end Sys2Proof.Proofs
end

section
/-! SUPPORT. What a list of requests executed in order does, and the answer of one request: which part of it CFG.WRITE alone
decides (20_memory.md R46, R47). -/

namespace Sys2Proof.Proofs

open Sys2Proof Sys2Proof.Machine

/-! ### Requests executed in order -/

/-- Executing one list of requests and then another is executing both in order (20_memory.md R46). -/
theorem crcEnAfter_append (e : Bool) (ws vs : List Word56) :
    crcEnAfter e (ws ++ vs) = crcEnAfter (crcEnAfter e ws) vs := by
  induction ws generalizing e with
  | nil => rfl
  | cons w ws ih => exact ih _

/-- The responses of two lists of requests in order: the second list sees CRC_EN as the first left it (20_memory.md R46). -/
theorem responsesInOrder_append (e : Bool) (ws vs : List Word56) :
    responsesInOrder e (ws ++ vs) = responsesInOrder e ws ++ responsesInOrder (crcEnAfter e ws) vs := by
  induction ws generalizing e with
  | nil => rfl
  | cons w ws ih => exact congrArg (_ :: ·) (ih _)

/-- From `s` to `t`, exactly the requests `ws` have taken effect, in order: CRC_EN is what they leave, and their responses
follow the words delivered and pending before, one per request (20_memory.md R46). -/
def TookEffectInOrder (ws : List Word56) (s t : State) : Prop :=
  t.cfc.crcEn = crcEnAfter s.cfc.crcEn ws ∧
    t.delivered ++ t.pending = s.delivered ++ s.pending ++ responsesInOrder s.cfc.crcEn ws

/-- Between states of the same CRC_EN and the same words delivered and pending, no request has taken effect. -/
theorem tookEffectInOrder_nil {s t : State} (hcrc : t.cfc.crcEn = s.cfc.crcEn)
    (hwords : t.delivered ++ t.pending = s.delivered ++ s.pending) : TookEffectInOrder [] s t :=
  ⟨hcrc, hwords.trans (List.append_nil _).symm⟩

theorem tookEffectInOrder_append {ws vs : List Word56} {s u t : State} (hsu : TookEffectInOrder ws s u)
    (hut : TookEffectInOrder vs u t) : TookEffectInOrder (ws ++ vs) s t := by
  obtain ⟨hcrcu, hwordsu⟩ := hsu
  obtain ⟨hcrct, hwordst⟩ := hut
  refine ⟨?_, ?_⟩
  · rw [hcrct, hcrcu, crcEnAfter_append]
  · rw [hwordst, hwordsu, hcrcu, responsesInOrder_append, List.append_assoc _ (responsesInOrder _ ws)]

/-! ### CRC_EN in the answer of one request -/

/-- Every request but CFG.WRITE leaves CRC_EN as it is (20_memory.md R47). -/
theorem txnExec_crcEn_of_opcField_ne {req : Word56} (h : opcField req ≠ 0x20) (e : Bool) : (txnExec e req).1 = e := by
  obtain ⟨-, hd⟩ | ⟨-, hd⟩ | ⟨-, hd⟩ | ⟨-, hd⟩ | ⟨-, hd⟩ | ⟨-, hd⟩ | ⟨ho, -⟩ | ⟨-, hd⟩ | ⟨-, hd⟩ := decode_cases req
  case inr.inr.inr.inr.inr.inr.inl => exact absurd ho h
  case inr.inr.inr.inr.inr.inr.inr.inr => rw [txnExec_of_decode_unassigned hd]
  all_goals
    rw [txnExec_of_decode_op hd]
    rfl

/-- What CFG.WRITE answers and leaves does not depend on CRC_EN before it (42_control.md R161). -/
theorem txnExec_congr_of_opcField_eq {req : Word56} (h : opcField req = 0x20) (e e' : Bool) :
    txnExec e req = txnExec e' req := by
  have hd : decode req = .op (.cfgWrite (payloadByte req 0)) := by simp [decode, h]
  rw [txnExec_of_decode_op hd, txnExec_of_decode_op hd]
  rfl

/-- A request right after itself gets the same answer again (20_memory.md R47). -/
theorem txnExec_idem (e : Bool) (req : Word56) : txnExec (txnExec e req).1 req = txnExec e req := by
  by_cases h : opcField req = 0x20
  · exact txnExec_congr_of_opcField_eq h _ _
  · rw [txnExec_crcEn_of_opcField_ne h]

/-- Accept that answers a next state answers the request as the transaction relation's `exec` does (10_state.md R27). -/
theorem eq_answered_of_accept {req : Word56} {s t : State} (h : accept req s = .next t) :
    t = answered s (txnExec s.cfc.crcEn req) := by
  rw [accept_eq_txnExec] at h
  cases h
  rfl

/-! ### Steps and runs -/

/-- Every clock edge uses up the inputs of that edge (10_state.md R28; log 3). -/
theorem step_inputs {s t : State} (h : step s = .next t) : t.inputs = s.inputs.tail := by
  obtain ⟨-, rfl⟩ | ⟨-, -, ha⟩ | ⟨-, -, -, rfl⟩ | ⟨-, -, -, rfl⟩ := clockEdge_cases h
  · rfl
  · rw [eq_answered_of_accept ha]
    rfl
  · rfl
  · rfl

/-- A run of one or more steps is a step and the run from there. -/
theorem run_succ_cases {k : Nat} {s t : State} (h : run (k + 1) s = .next t) :
    ∃ u, step s = .next u ∧ run k u = .next t := by
  cases hstep : step s with
  | next u => exact ⟨u, rfl, (run_of_step hstep).symm.trans h⟩
  | fault r => simp [run, hstep] at h
  | refused r => simp [run, hstep] at h

theorem pins_rst_of_noReset {k : Nat} {s : State} (h : noReset (k + 1) s) : s.pins.rst = false :=
  pins_of_forall_take (P := fun p => p.rst = false) rfl h

theorem noReset_of_step {k : Nat} {s t : State} (h : noReset (k + 1) s) (hstep : step s = .next t) : noReset k t := by
  rw [noReset, step_inputs hstep]
  exact forall_take_tick h

end Sys2Proof.Proofs
end

section
/-! PROOFS. The order of requests and responses, and the purity of requests (20_memory.md R46, R47). -/

namespace Sys2Proof.Proofs

open Sys2Proof Sys2Proof.Machine

/-- The edge of a request transfer: that request has taken effect, whole (20_memory.md R46). -/
theorem tookEffectInOrder_of_requestTransfers {s t : State} (htr : s.requestTransfers = true)
    (hstep : step s = .next t) : TookEffectInOrder [s.pins.reqData] s t := by
  obtain ⟨-, -, hempty⟩ := (requestTransfers_iff s).1 htr
  rw [step_of_requestTransfers htr] at hstep
  cases hstep
  refine ⟨rfl, ?_⟩
  rw [pending_of_not_rspFull hempty, List.append_nil]
  rfl

/-- An edge without reset and without a request transfer: no request has taken effect, and a response that transfers at it
was the pending one. -/
theorem tookEffectInOrder_of_not_requestTransfers {s t : State} (hrst : s.pins.rst = false)
    (htr : s.requestTransfers = false) (hstep : step s = .next t) : TookEffectInOrder [] s t := by
  obtain ⟨hrst', -⟩ | ⟨-, htr', -⟩ | ⟨-, -, hresp, rfl⟩ | ⟨-, -, -, rfl⟩ := clockEdge_cases hstep
  · exact absurd hrst' (by simp [hrst])
  · exact absurd htr' (by simp [htr])
  · obtain ⟨hvalid, -⟩ := (responseTransfers_iff _ _).1 hresp
    obtain ⟨-, hfull, -⟩ := (rspValid_iff _ _).1 hvalid
    exact tookEffectInOrder_nil rfl (deliver_delivered_append_pending hfull)
  · exact tookEffectInOrder_nil rfl rfl

/-- Along a run without reset, exactly the requests that transfer take effect, in the order they transfer (20_memory.md
R46). -/
theorem tookEffectInOrder_of_run {k : Nat} {s t : State} (hrst : noReset k s) (hrun : run k s = .next t) :
    TookEffectInOrder (transfers k s) s t := by
  induction k generalizing s with
  | zero =>
    cases hrun
    exact tookEffectInOrder_nil rfl rfl
  | succ k ih =>
    obtain ⟨u, hstep, hrun⟩ := run_succ_cases hrun
    rw [transfers_of_step hstep]
    refine tookEffectInOrder_append ?_ (ih (noReset_of_step hrst hstep) hrun)
    cases htr : s.requestTransfers with
    | true => exact tookEffectInOrder_of_requestTransfers htr hstep
    | false => exact tookEffectInOrder_of_not_requestTransfers (pins_rst_of_noReset hrst) htr hstep

/-- Settles O36, by induction on the number of edges: the edge of a transfer adds one response, any other none. -/
theorem responsesComeInRequestOrder : Obligations.ResponsesComeInRequestOrder := by
  refine ⟨fun s t htr hstep => ?_, fun k s t hrst hrun => tookEffectInOrder_of_run hrst hrun⟩
  rw [step_of_requestTransfers htr] at hstep
  cases hstep
  rfl

/-- Settles O22, by the answer of the one request: CRC_EN before it is all it reads, and only CFG.WRITE changes it. -/
theorem requestsArePureButForCfgWrite : Obligations.RequestsArePureButForCfgWrite := by
  refine ⟨fun w s t hst hopc => ?_, fun w s t u hst htu => ?_, fun w s s' t t' hst hst' hcrc => ?_⟩
  · have hkeep : t.cfc.crcEn = s.cfc.crcEn := by
      rw [eq_answered_of_accept hst]
      exact txnExec_crcEn_of_opcField_ne hopc _
    have hframe := accept_frame hst
    rwa [hkeep] at hframe
  · have hcrc : t.cfc.crcEn = (txnExec s.cfc.crcEn w).1 := by rw [eq_answered_of_accept hst]; rfl
    rw [eq_answered_of_accept htu, hcrc, txnExec_idem, eq_answered_of_accept hst]
    rfl
  · rw [eq_answered_of_accept hst, eq_answered_of_accept hst', hcrc]
    rfl

end Sys2Proof.Proofs
end

section
/-! PROOFS. The encoding: decoding is by OPC alone, illegal requests get the error response and no other request does, and
the pseudo-instructions (30_encoding.md R65, R68, R72). -/

namespace Sys2Proof.Proofs

open Sys2Proof Sys2Proof.Machine

/-! ### Unassigned OPC values -/

/-- An OPC that is none of the eight assigned ones is refused by the decoder (30_encoding.md R65). -/
theorem decode_of_opcField_notMem {w : Word56}
    (h : opcField w ∉ ([0x01, 0x02, 0x03, 0x10, 0x11, 0x12, 0x20, 0x21] : List Byte)) :
    decode w = .unassignedOpc (opcField w) := by
  obtain ⟨ho, -⟩ | ⟨ho, -⟩ | ⟨ho, -⟩ | ⟨ho, -⟩ | ⟨ho, -⟩ | ⟨ho, -⟩ | ⟨ho, -⟩ | ⟨ho, -⟩ | ⟨-, hd⟩ := decode_cases w
  case inr.inr.inr.inr.inr.inr.inr.inr => exact hd
  all_goals exact absurd (by simp [ho]) h

/-- The OPC values that are none of the eight assigned ones, by their ranges (30_encoding.md R64, R68). -/
theorem notMem_assignedOpcs_iff (o : Byte) :
    o ∉ ([0x01, 0x02, 0x03, 0x10, 0x11, 0x12, 0x20, 0x21] : List Byte) ↔
      o.toNat = 0 ∨ (0x04 ≤ o.toNat ∧ o.toNat ≤ 0x0F) ∨ (0x13 ≤ o.toNat ∧ o.toNat ≤ 0x1F) ∨ 0x22 ≤ o.toNat := by
  revert o
  decide

/-- The unassigned OPC values are 248, counted over all 256 bytes (30_encoding.md R68). -/
theorem length_unassignedOpcs :
    ((List.range 256).filter
      (fun o => o = 0 ∨ (0x04 ≤ o ∧ o ≤ 0x0F) ∨ (0x13 ≤ o ∧ o ≤ 0x1F) ∨ 0x22 ≤ o)).length = 248 := by
  decide +kernel

/-- A request the decoder refuses gets the error word, and nothing but the response buffer changes (30_encoding.md R68). -/
theorem accept_of_decode_unassigned {w : Word56} {o : Byte} (h : decode w = .unassignedOpc o) (s : State) :
    accept w s = .next { s with cfc := { s.cfc with rspFull := true, rspBuf := 0x80000000000000 } } := by
  rw [accept_eq_txnExec, txnExec_of_decode_unassigned h]
  rfl

/-- Settles O4: with OPC known one branch of the decoder is left, and any other OPC is refused and gets the error word. -/
theorem decodingIsTotalAndByOpcAlone : Obligations.DecodingIsTotalAndByOpcAlone := by
  intro w s
  refine ⟨?_, ?_, ?_, ?_, ?_, ?_, ?_, ?_, fun hmem => ?_⟩
  case refine_9 =>
    have hd : decode w = .unassignedOpc (opcField w) := decode_of_opcField_notMem hmem
    exact ⟨hd, accept_of_decode_unassigned hd s⟩
  all_goals
    intro h
    simp [decode, opcField, payloadByte, h]

/-! ### Which operations get ILLEGAL_REQUEST -/

/-- CMD.BUILD answers the error word for KIND 0x03 to 0xFF (30_encoding.md R68). -/
theorem cmdWord_of_three_le (kind : Byte) (h : 0x03 ≤ kind.toNat) : cmdWord kind = 0x80000000000000 := by
  revert kind
  decide

/-- CMD.BUILD answers STATUS OK for KIND 0, 1 and 2 (40_frame_codec.md R101). -/
theorem statusField_cmdWord_of_lt_three (kind : Byte) (h : kind.toNat < 0x03) : statusField (cmdWord kind) = 0 := by
  revert kind
  decide

/-- The STATUS of an OK word is 0 whatever bytes it carries (30_encoding.md R62). -/
theorem statusField_okWord (q0 q1 q2 q3 q4 q5 : Byte) : statusField (okWord q0 q1 q2 q3 q4 q5) = 0 := by
  rw [okWord_eq_packResponse, statusField_packResponse]
  rfl

/-- A well-formed operation never answers ILLEGAL_REQUEST: OK words have STATUS 0, and the frame decoders' error words have
STATUS 1 (30_encoding.md R68, R76). -/
theorem statusField_opAnswer_ne_two {i : Instr} (h : i.wellFormed = true) (e : Bool) :
    statusField (opAnswer e i).2 ≠ 2 := by
  cases i with
  | cmdBuild kind =>
    have hkind : kind.toNat ≤ 2 := of_decide_eq_true h
    simp [opAnswer, statusField_cmdWord_of_lt_three kind (Nat.lt_succ_of_le hkind)]
  | decFlow b0 b1 b2 =>
    simp only [opAnswer]
    split_ifs
    · decide
    · simp [statusField_okWord]
  | decSerial b0 b1 b2 b3 b4 b5 =>
    simp only [opAnswer]
    split_ifs
    case neg => simp [statusField_okWord]
    all_goals decide
  | crcStep data crcIn => simp [opAnswer, statusField_okWord]
  | crcPair in1 in2 => simp [opAnswer, statusField_okWord]
  | crcCheck in1 in2 exp =>
    simp only [opAnswer]
    split_ifs <;> decide
  | cfgWrite val =>
    simp only [opAnswer]
    decide
  | cfgRead => cases e <;> decide

/-- A word decodes to CMD.BUILD only with OPC 0x01 and KIND in P[0] (30_encoding.md R64, R66). -/
theorem opcField_of_decode_cmdBuild {w : Word56} {kind : Byte} (h : decode w = .op (.cmdBuild kind)) :
    opcField w = 0x01 ∧ payloadByte w 0 = kind := by
  obtain ⟨ho, hd⟩ | ⟨-, hd⟩ | ⟨-, hd⟩ | ⟨-, hd⟩ | ⟨-, hd⟩ | ⟨-, hd⟩ | ⟨-, hd⟩ | ⟨-, hd⟩ | ⟨-, hd⟩ := decode_cases w
  all_goals cases hd.symm.trans h
  exact ⟨ho, rfl⟩

/-- The one ill-formed operation a word can decode to is CMD.BUILD with KIND 0x03 to 0xFF (30_encoding.md R68). -/
theorem wellFormed_of_decode {w : Word56} {i : Instr} (hd : decode w = .op i)
    (hlegal : ¬(opcField w = 0x01 ∧ 0x03 ≤ (payloadByte w 0).toNat)) : i.wellFormed = true := by
  cases i with
  | cmdBuild kind =>
    obtain ⟨ho, rfl⟩ := opcField_of_decode_cmdBuild hd
    have hkind : (payloadByte w 0).toNat ≤ 2 := Nat.le_of_lt_succ (Nat.lt_of_not_le fun h => hlegal ⟨ho, h⟩)
    exact decide_eq_true hkind
  | _ => rfl

/-- CMD.BUILD with KIND 0x03 to 0xFF gets the error word, and nothing but the response buffer changes (30_encoding.md R68). -/
theorem accept_of_decode_cmdBuild {w : Word56} {kind : Byte} (hd : decode w = .op (.cmdBuild kind))
    (hkind : 0x03 ≤ kind.toNat) (s : State) :
    accept w s = .next { s with cfc := { s.cfc with rspFull := true, rspBuf := 0x80000000000000 } } := by
  rw [accept_eq_txnExec, txnExec_of_decode_op hd, opAnswer, cmdWord_of_three_le kind hkind]
  rfl

/-- Settles O5: an illegal request is one the decoder refuses or an ill-formed CMD.BUILD, and every other request decodes to
a well-formed operation, whose answer has another STATUS. -/
theorem illegalRequestsGetOnlyTheErrorResponse : Obligations.IllegalRequestsGetOnlyTheErrorResponse := by
  refine ⟨length_unassignedOpcs, fun w s => ⟨fun hillegal => ?_, fun hlegal => ?_⟩⟩
  · obtain hopc | ⟨hopc, hkind⟩ := hillegal
    · exact accept_of_decode_unassigned (decode_of_opcField_notMem ((notMem_assignedOpcs_iff _).2 hopc)) s
    · obtain ⟨hbuild, -⟩ := decodingIsTotalAndByOpcAlone w s
      exact accept_of_decode_cmdBuild (hbuild (BitVec.eq_of_toNat_eq hopc)) hkind s
  · refine ⟨_, accept_eq_txnExec w s, ?_⟩
    change statusField (txnExec s.cfc.crcEn w).2 ≠ 2
    obtain ⟨i, hd, -⟩ | ⟨o, hd, -⟩ := accept_cases w s
    · rw [txnExec_of_decode_op hd]
      exact statusField_opAnswer_ne_two
        (wellFormed_of_decode hd fun ⟨ho, hkind⟩ => hlegal (.inr ⟨congrArg BitVec.toNat ho, hkind⟩)) _
    · exact absurd (.inl ((notMem_assignedOpcs_iff _).1 (opcField_notMem_of_unassigned hd))) hlegal

/-! ### Pseudo-instructions -/

/-- Settles O46: each line is read and encoded to its word; `crc.first` is by definition `crc.step` with the seed. -/
theorem pseudoInstructionsExpand : Obligations.PseudoInstructionsExpand :=
  ⟨by decide, by decide, by decide, by decide, by decide, by decide, by decide, by decide, by decide, by decide,
    fun d => ⟨rfl, rfl⟩⟩

end Sys2Proof.Proofs
end

section
/-! SUPPORT. The frame decoders' answers by their cases, and what of a response word an error leaves (30_encoding.md R63,
40_frame_codec.md R104, R105). -/

namespace Sys2Proof.Proofs

open Sys2Proof Sys2Proof.Machine

/-- A meaning that answers a next state answers what `opAnswer` says (10_state.md R27). -/
theorem eq_answered_of_exec {i : Instr} {s t : State} (h : exec i s = .next t) :
    t = answered s (opAnswer s.cfc.crcEn i) := by
  rw [exec_eq_opAnswer] at h
  cases h
  rfl

/-- A check passes exactly when the fold is the expected byte (41_crc.md R133). -/
theorem crcCheck_eq_true_iff (a b e : Byte) : crcCheck a b e = true ↔ crcFold2 a b = e := beq_iff_eq

/-! ### The answers of the frame decoders -/

/-- DEC.FLOW answers its three bytes, and then the check passed or was off, or it answers CRC_MISMATCH and no value
(40_frame_codec.md R104). -/
theorem opAnswer_decFlow_cases (e : Bool) (b0 b1 b2 : Byte) :
    ((e = true → crcCheck b0 b1 b2 = true) ∧ (opAnswer e (.decFlow b0 b1 b2)).2 = okWord b0 b1 b2 0 0 0) ∨
      (statusField (opAnswer e (.decFlow b0 b1 b2)).2 = 1 ∧ resultField (opAnswer e (.decFlow b0 b1 b2)).2 = 0) := by
  simp only [opAnswer, crcCheck_eq_true_iff]
  by_cases hfail : e = true ∧ crcFold2 b0 b1 ≠ b2
  · rw [if_pos hfail]
    exact .inr (by decide)
  · rw [if_neg hfail]
    exact .inl ⟨fun he => not_not.1 fun hne => hfail ⟨he, hne⟩, rfl⟩

/-- DEC.SERIAL answers the identifier and both CRC bytes, and then both checks passed or were off, or it answers CRC_MISMATCH
and no value (40_frame_codec.md R105). -/
theorem opAnswer_decSerial_cases (e : Bool) (b0 b1 b2 b3 b4 b5 : Byte) :
    ((e = true → crcCheck b0 b1 b2 = true ∧ crcCheck b3 b4 b5 = true) ∧
        (opAnswer e (.decSerial b0 b1 b2 b3 b4 b5)).2 = okWord b0 b1 b3 b4 b2 b5) ∨
      (statusField (opAnswer e (.decSerial b0 b1 b2 b3 b4 b5)).2 = 1 ∧
        resultField (opAnswer e (.decSerial b0 b1 b2 b3 b4 b5)).2 = 0) := by
  simp only [opAnswer, crcCheck_eq_true_iff]
  split_ifs with hboth hhalf1 hhalf0
  case neg =>
    exact .inl ⟨fun he => ⟨not_not.1 fun hne => hhalf0 ⟨he, hne⟩, not_not.1 fun hne => hhalf1 ⟨he, hne⟩⟩, rfl⟩
  all_goals exact .inr (by decide)

/-! ### Errors carry no result -/

/-- Every answer has STATUS OK or all its result bits 0 (30_encoding.md R63). -/
theorem opAnswer_ok_or_resultField_eq_zero (e : Bool) (i : Instr) :
    statusField (opAnswer e i).2 = 0 ∨ resultField (opAnswer e i).2 = 0 := by
  cases i with
  | cmdBuild kind =>
    simp only [opAnswer]
    obtain hlt | hle := Nat.lt_or_ge kind.toNat 0x03
    · exact .inl (statusField_cmdWord_of_lt_three kind hlt)
    · rw [cmdWord_of_three_le kind hle]
      exact .inr (by decide)
  | decFlow b0 b1 b2 =>
    obtain ⟨-, hok⟩ | ⟨-, hzero⟩ := opAnswer_decFlow_cases e b0 b1 b2
    · exact .inl (hok ▸ statusField_okWord ..)
    · exact .inr hzero
  | decSerial b0 b1 b2 b3 b4 b5 =>
    obtain ⟨-, hok⟩ | ⟨-, hzero⟩ := opAnswer_decSerial_cases e b0 b1 b2 b3 b4 b5
    · exact .inl (hok ▸ statusField_okWord ..)
    · exact .inr hzero
  | crcStep data crcIn => exact .inl (statusField_okWord ..)
  | crcPair in1 in2 => exact .inl (statusField_okWord ..)
  | crcCheck in1 in2 exp =>
    simp only [opAnswer]
    split_ifs
    all_goals exact .inl (by decide)
  | cfgWrite val =>
    simp only [opAnswer]
    exact .inl (by decide)
  | cfgRead => cases e <;> exact .inl (by decide)

/-! ### Result bytes -/

/-- The result bytes of an OK word are the six bytes it is written from (30_encoding.md R63). -/
theorem payloadByte_okWord (q0 q1 q2 q3 q4 q5 : Byte) (i : Nat) (hi : i < 6) :
    payloadByte (okWord q0 q1 q2 q3 q4 q5) i = [q0, q1, q2, q3, q4, q5].getD i 0 := by
  rw [okWord_eq_packResponse, packResponse, payloadByte_packWord _ _ i hi]

/-- Bits 47:16 of a word are its first four payload bytes in big-endian order (20_memory.md R43). -/
theorem toNat_extractLsb'_sixteen (w : Word56) :
    (w.extractLsb' 16 32).toNat =
      (payloadByte w 0).toNat * 2 ^ 24 + (payloadByte w 1).toNat * 2 ^ 16 + (payloadByte w 2).toNat * 2 ^ 8 +
        (payloadByte w 3).toNat := by
  simp only [payloadByte, BitVec.extractLsb'_toNat, Nat.shiftRight_eq_div_pow]
  omega

end Sys2Proof.Proofs
end

section
/-! PROOFS. The frame codec: a decoded value is passed on only from a frame whose triplets passed, and the serial identifier's
byte order (40_frame_codec.md R106, R107). -/

namespace Sys2Proof.Proofs

open Sys2Proof Sys2Proof.Machine

/-- Settles O18: by the cases of each decoder's answer, since a CRC_MISMATCH word is not OK; and every answer that is not OK
has no result. -/
theorem frameIntegrity : Obligations.FrameIntegrity := by
  refine ⟨fun b0 b1 b2 s t hen hexec hok => ?_, fun b0 b1 b2 b3 b4 b5 s t hen hexec hok => ?_,
    fun i s t hexec hmismatch => ?_⟩
  all_goals obtain rfl := eq_answered_of_exec hexec
  · obtain ⟨hpass, -⟩ | ⟨hmismatch, -⟩ := opAnswer_decFlow_cases s.cfc.crcEn b0 b1 b2
    · exact hpass hen
    · exact absurd (hok.symm.trans hmismatch) (by decide)
  · obtain ⟨hpass, -⟩ | ⟨hmismatch, -⟩ := opAnswer_decSerial_cases s.cfc.crcEn b0 b1 b2 b3 b4 b5
    · exact hpass hen
    · exact absurd (hok.symm.trans hmismatch) (by decide)
  · obtain hok | hzero := opAnswer_ok_or_resultField_eq_zero s.cfc.crcEn i
    · exact absurd (hok.symm.trans hmismatch) (by decide)
    · exact hzero

/-- Settles O19: an OK answer is the word of b0, b1, b3, b4 and the CRC bytes, and bits 47:16 are its first four bytes. -/
theorem serialIdSkipsByteTwo : Obligations.SerialIdSkipsByteTwo := by
  intro b0 b1 b2 b3 b4 b5 s t hexec hok
  obtain rfl := eq_answered_of_exec hexec
  obtain ⟨-, hword⟩ | ⟨hmismatch, -⟩ := opAnswer_decSerial_cases s.cfc.crcEn b0 b1 b2 b3 b4 b5
  · rw [answered, hword, toNat_extractLsb'_sixteen]
    simp [payloadByte_okWord]
  · exact absurd (hok.symm.trans hmismatch) (by decide)

end Sys2Proof.Proofs
end

section
/-! SUPPORT. The CRC functions as 41_crc.md writes them, and what CRC_EN changes in an operation's answer (41_crc.md R130, R131,
R138). -/

namespace Sys2Proof.Proofs

open Sys2Proof Sys2Proof.Machine

/-! ### The CRC by its rules -/

/-- The shift made at nine bits and cut to eight is the shift of a byte: the bit shifted out is discarded (41_crc.md R130). -/
theorem shift_at_nine_bits (x : Byte) : ((x.setWidth 9 <<< 1) &&& 0xFF).setWidth 8 = x <<< 1 := by
  calc
    ((x.setWidth 9 <<< 1) &&& 0xFF).setWidth 8 = (x.setWidth 9 <<< 1).setWidth 8 &&& BitVec.allOnes 8 := BitVec.setWidth_and
    _ = (x.setWidth 9 <<< 1).setWidth 8 := BitVec.and_allOnes
    _ = x <<< 1 := by
      ext i hi
      simp

/-- A round tests the top bit before the shift and applies the polynomial exactly when it was set (41_crc.md R130). -/
theorem crcRound_eq_ite (x : Byte) : crcRound x = if x.getLsbD 7 = true then x <<< 1 ^^^ 0x31 else x <<< 1 := by
  have hmsb : x.msb = x.getLsbD 7 := x.msb_eq_getLsbD_last
  rw [crcRound, hmsb]
  split_ifs
  · rfl
  · exact BitVec.xor_zero

/-- `n` rounds are the round iterated `n` times (41_crc.md R131). -/
theorem crcRounds_eq_iterate (n : Nat) (x : Byte) : crcRounds n x = crcRound^[n] x := by
  induction n generalizing x with
  | zero => rfl
  | succ n ih => rw [crcRounds, ih, Function.iterate_succ_apply]

/-! ### What CRC_EN changes in an answer -/

/-- CRC_EN makes no difference to the word of an operation that neither decodes a frame nor reads CFG (41_crc.md R138). -/
theorem opAnswer_word_congr {i : Instr} (hflow : ∀ b0 b1 b2, i ≠ .decFlow b0 b1 b2)
    (hserial : ∀ b0 b1 b2 b3 b4 b5, i ≠ .decSerial b0 b1 b2 b3 b4 b5) (hread : i ≠ .cfgRead) (e e' : Bool) :
    (opAnswer e i).2 = (opAnswer e' i).2 := by
  cases i with
  | decFlow b0 b1 b2 => exact absurd rfl (hflow b0 b1 b2)
  | decSerial b0 b1 b2 b3 b4 b5 => exact absurd rfl (hserial b0 b1 b2 b3 b4 b5)
  | cfgRead => exact absurd rfl hread
  | cmdBuild | crcStep | crcPair | crcCheck | cfgWrite => rfl

/-- With CRC_EN = 0 DEC.FLOW answers its three bytes, whatever they are (40_frame_codec.md R104). -/
theorem opAnswer_false_decFlow (b0 b1 b2 : Byte) : (opAnswer false (.decFlow b0 b1 b2)).2 = okWord b0 b1 b2 0 0 0 := by
  simp [opAnswer]

/-- With CRC_EN = 0 DEC.SERIAL answers the identifier and both CRC bytes, whatever they are (40_frame_codec.md R105). -/
theorem opAnswer_false_decSerial (b0 b1 b2 b3 b4 b5 : Byte) :
    (opAnswer false (.decSerial b0 b1 b2 b3 b4 b5)).2 = okWord b0 b1 b3 b4 b2 b5 := by
  simp [opAnswer]

/-- Setting CRC_EN leaves the word of every operation but CFG.READ as it was, or makes it a rejection, with another STATUS
(41_crc.md R138). -/
theorem opAnswer_true_cases {i : Instr} (hread : i ≠ .cfgRead) :
    (opAnswer true i).2 = (opAnswer false i).2 ∨
      statusField (opAnswer true i).2 ≠ statusField (opAnswer false i).2 := by
  cases i with
  | decFlow b0 b1 b2 =>
    rw [opAnswer_false_decFlow, statusField_okWord]
    obtain ⟨-, hok⟩ | ⟨hmismatch, -⟩ := opAnswer_decFlow_cases true b0 b1 b2
    · exact .inl hok
    · exact .inr (hmismatch ▸ by decide)
  | decSerial b0 b1 b2 b3 b4 b5 =>
    rw [opAnswer_false_decSerial, statusField_okWord]
    obtain ⟨-, hok⟩ | ⟨hmismatch, -⟩ := opAnswer_decSerial_cases true b0 b1 b2 b3 b4 b5
    · exact .inl hok
    · exact .inr (hmismatch ▸ by decide)
  | cfgRead => exact absurd rfl hread
  | cmdBuild | crcStep | crcPair | crcCheck | cfgWrite => exact .inl rfl

/-- The STATUS of an operation other than CFG.READ decides its word, whatever CRC_EN holds (41_crc.md R138). -/
theorem opAnswer_word_congr_of_statusField_eq {i : Instr} (hread : i ≠ .cfgRead) {e e' : Bool}
    (hstatus : statusField (opAnswer e i).2 = statusField (opAnswer e' i).2) :
    (opAnswer e i).2 = (opAnswer e' i).2 := by
  cases e with
  | false =>
    cases e' with
    | false => rfl
    | true => exact ((opAnswer_true_cases hread).resolve_right fun hne => hne hstatus.symm).symm
  | true =>
    cases e' with
    | false => exact (opAnswer_true_cases hread).resolve_right fun hne => hne hstatus
    | true => rfl

end Sys2Proof.Proofs
end

section
/-! PROOFS. The CRC: its functions follow their rules, the table is the loop, and CRC_EN governs frame rejection only
(41_crc.md). -/

namespace Sys2Proof.Proofs

open Sys2Proof Sys2Proof.Machine

/-- Settles O39: the round by its top bit and the nine-bit shift, `crc8` by induction on the rounds; the fold and the check by
their definitions. -/
theorem crcFunctionsFollowTheirRules : Obligations.CrcFunctionsFollowTheirRules := by
  refine ⟨fun x => ?_, fun d c => crcRounds_eq_iterate 8 (d ^^^ c), fun _ _ => rfl, crcCheck_eq_true_iff⟩
  rw [shift_at_nine_bits, crcRound_eq_ite]

/-- Settles O40: an update by the table looks up the exclusive OR of its two bytes, and the second is 0x00. -/
theorem referenceTableIsTheLoop : Obligations.ReferenceTableIsTheLoop := by
  intro i
  calc
    crcTable i = crcTable (i ^^^ 0x00) := congrArg crcTable BitVec.xor_zero.symm
    _ = crc8 i 0x00 := (crc8_eq_crcTable i 0x00).symm

/-- Settles O20: outside the two frame decoders the word does not depend on CRC_EN, and in them setting CRC_EN changes the
word only by a rejection, which shows in STATUS. -/
theorem crcEnGovernsFrameRejectionOnly : Obligations.CrcEnGovernsFrameRejectionOnly := by
  refine ⟨fun i s s' t t' ht ht' hflow hserial hread => ?_, fun i s s' t t' ht ht' hread hstatus => ?_⟩
  all_goals
    obtain rfl := eq_answered_of_exec ht
    obtain rfl := eq_answered_of_exec ht'
  · exact opAnswer_word_congr hflow hserial hread _ _
  · exact opAnswer_word_congr_of_statusField_eq hread hstatus

end Sys2Proof.Proofs
end

section
/-! SUPPORT. Which triplets of a request fail, and the STATUS and FAILMASK of every answer by them (60_exceptions.md R181 to
R183). -/

namespace Sys2Proof.Proofs

open Sys2Proof Sys2Proof.Machine

/-! ### The triplets that fail -/

/-- Triplet 0 of a frame, or half 0 of a serial frame, fails its check (60_exceptions.md R182). -/
def tripletZeroFails : Instr → Bool
  | .decFlow b0 b1 b2 => !crcCheck b0 b1 b2
  | .decSerial b0 b1 b2 _ _ _ => !crcCheck b0 b1 b2
  | _ => false

/-- Half 1 of a serial frame fails its check (60_exceptions.md R182). -/
def halfOneFails : Instr → Bool
  | .decSerial _ _ _ b3 b4 b5 => !crcCheck b3 b4 b5
  | _ => false

/-- The mask of the triplets an operation rejects, none while CRC_EN = 0 (60_exceptions.md R182). -/
def rejectedTriplets (e : Bool) (i : Instr) : BitVec 2 :=
  BitVec.ofBool (e && halfOneFails i) ++ BitVec.ofBool (e && tripletZeroFails i)

/-- Triplet 0 fails in the flow and serial frames whose first fold is not the CRC byte after it (41_crc.md R133). -/
theorem tripletZeroFails_iff (i : Instr) :
    tripletZeroFails i = true ↔
      (∃ b0 b1 b2, i = .decFlow b0 b1 b2 ∧ crcFold2 b0 b1 ≠ b2) ∨
        ∃ b0 b1 b2 b3 b4 b5, i = .decSerial b0 b1 b2 b3 b4 b5 ∧ crcFold2 b0 b1 ≠ b2 := by
  cases i <;> simp [tripletZeroFails, crcCheck_eq_false_iff]

/-- Half 1 fails in the serial frames whose second fold is not the CRC byte after it (41_crc.md R133). -/
theorem halfOneFails_iff (i : Instr) :
    halfOneFails i = true ↔ ∃ b0 b1 b2 b3 b4 b5, i = .decSerial b0 b1 b2 b3 b4 b5 ∧ crcFold2 b3 b4 ≠ b5 := by
  cases i <;> simp [halfOneFails, crcCheck_eq_false_iff]

/-- Bit 0 of the mask is triplet 0 (60_exceptions.md R182). -/
theorem getLsbD_zero_rejectedTriplets (e : Bool) (i : Instr) :
    (rejectedTriplets e i).getLsbD 0 = (e && tripletZeroFails i) := by
  rw [rejectedTriplets, BitVec.getLsbD_append, if_pos Nat.zero_lt_one]
  simp

/-- Bit 1 of the mask is half 1 (60_exceptions.md R182). -/
theorem getLsbD_one_rejectedTriplets (e : Bool) (i : Instr) :
    (rejectedTriplets e i).getLsbD 1 = (e && halfOneFails i) := by
  rw [rejectedTriplets, BitVec.getLsbD_append, if_neg (Nat.lt_irrefl 1)]
  simp

/-- A triplet is rejected exactly when CRC_EN = 1 and one fails (60_exceptions.md R182). -/
theorem rejectedTriplets_ne_zero_iff (e : Bool) (i : Instr) :
    rejectedTriplets e i ≠ 0 ↔ e = true ∧ (tripletZeroFails i = true ∨ halfOneFails i = true) := by
  rw [rejectedTriplets]
  generalize tripletZeroFails i = f0
  generalize halfOneFails i = f1
  revert e f0 f1
  decide

/-- Nothing is rejected where nothing fails. -/
theorem rejectedTriplets_eq_zero {i : Instr} (e : Bool) (hzero : tripletZeroFails i = false)
    (hone : halfOneFails i = false) : rejectedTriplets e i = 0 := by
  rw [rejectedTriplets, hzero, hone, Bool.and_false]
  decide

/-- Nothing is rejected while CRC_EN = 0 (60_exceptions.md R182). -/
@[simp] theorem rejectedTriplets_false (i : Instr) : rejectedTriplets false i = 0 := by
  rw [rejectedTriplets, Bool.false_and, Bool.false_and]
  decide

/-- The mask of a flow frame is 0b01 when it is rejected (60_exceptions.md R183). -/
theorem rejectedTriplets_decFlow (e : Bool) (b0 b1 b2 : Byte) :
    rejectedTriplets e (.decFlow b0 b1 b2) = if e = true ∧ crcFold2 b0 b1 ≠ b2 then 0b01 else 0b00 := by
  simp only [rejectedTriplets, halfOneFails, tripletZeroFails, ← crcCheck_eq_false_iff]
  generalize crcCheck b0 b1 b2 = ok
  revert e ok
  decide

/-- The mask of a serial frame, by the halves that are rejected (40_frame_codec.md R105, 60_exceptions.md R183). -/
theorem rejectedTriplets_decSerial (e : Bool) (b0 b1 b2 b3 b4 b5 : Byte) :
    rejectedTriplets e (.decSerial b0 b1 b2 b3 b4 b5) =
      if e = true ∧ crcFold2 b0 b1 ≠ b2 ∧ crcFold2 b3 b4 ≠ b5 then 0b11
      else if e = true ∧ crcFold2 b3 b4 ≠ b5 then 0b10
      else if e = true ∧ crcFold2 b0 b1 ≠ b2 then 0b01
      else 0b00 := by
  simp only [rejectedTriplets, halfOneFails, tripletZeroFails, ← crcCheck_eq_false_iff]
  generalize crcCheck b0 b1 b2 = ok0
  generalize crcCheck b3 b4 b5 = ok1
  revert e ok0 ok1
  decide

/-- The mask of a serial frame with CRC_EN = 1 has one bit for each failed half (60_exceptions.md R183). -/
theorem rejectedTriplets_true_decSerial (b0 b1 b2 b3 b4 b5 : Byte) :
    rejectedTriplets true (.decSerial b0 b1 b2 b3 b4 b5) =
      (if crcFold2 b3 b4 = b5 then 0b00 else 0b10) ||| (if crcFold2 b0 b1 = b2 then 0b00 else 0b01) := by
  simp only [rejectedTriplets, halfOneFails, tripletZeroFails, ← crcCheck_eq_true_iff]
  generalize crcCheck b0 b1 b2 = ok0
  generalize crcCheck b3 b4 b5 = ok1
  revert ok0 ok1
  decide

/-! ### The status and the mask of every answer -/

/-- The outcome of an operation: CRC_MISMATCH when a triplet is rejected, ILLEGAL_REQUEST when it is ill-formed, and OK
otherwise (60_exceptions.md R183). -/
def opStatus (e : Bool) (i : Instr) : Status :=
  if rejectedTriplets e i ≠ 0 then .crcMismatch else if i.wellFormed then .ok else .illegalRequest

/-- The word CMD.BUILD answers is an OK response for the KIND values of the command-frame table and an ILLEGAL_REQUEST response
for the others (40_frame_codec.md R101). -/
theorem cmdWord_eq_packResponse (kind : Byte) :
    ∃ q, cmdWord kind = packResponse (if kind.toNat ≤ 2 then .ok else .illegalRequest) 0 q := by
  rw [cmdWord_eq_of_cmdFrame]
  have hsome := cmdFrame_isSome_iff kind
  cases hframe : cmdFrame kind with
  | none =>
    have hkind : ¬kind.toNat ≤ 2 := fun h => by simpa [hframe] using hsome.2 h
    rw [if_neg hkind]
    exact ⟨[], by decide⟩
  | some c =>
    rw [if_pos (hsome.1 (hframe ▸ rfl))]
    exact ⟨_, okWord_eq_packResponse ..⟩

/-- An OK word is a response of the outcome of a well-formed operation that rejects nothing. -/
theorem eq_packResponse_of_ok {e : Bool} {i : Instr} {w : Word56} {q : List Byte} (hmask : rejectedTriplets e i = 0)
    (hwf : i.wellFormed = true) (hw : w = packResponse .ok 0 q) :
    ∃ q, w = packResponse (opStatus e i) (rejectedTriplets e i) q := by
  refine ⟨q, ?_⟩
  rw [opStatus, if_neg (not_not.2 hmask), if_pos hwf, hmask, hw]

/-- A CRC_MISMATCH word is a response of the outcome of an operation that rejects the triplets of its mask. -/
theorem eq_packResponse_of_mismatch {e : Bool} {i : Instr} {w : Word56} {m : BitVec 2}
    (hmask : rejectedTriplets e i = m) (hm : m ≠ 0) (hw : w = packResponse .crcMismatch m []) :
    ∃ q, w = packResponse (opStatus e i) (rejectedTriplets e i) q := by
  refine ⟨[], ?_⟩
  rw [opStatus, if_pos (hmask ▸ hm), hmask, hw]

/-- Every answer is a response of the operation's outcome, and its FAILMASK is the mask of the rejected triplets
(60_exceptions.md R182, R183). -/
theorem opAnswer_eq_packResponse (e : Bool) (i : Instr) :
    ∃ q, (opAnswer e i).2 = packResponse (opStatus e i) (rejectedTriplets e i) q := by
  cases i with
  | cmdBuild kind =>
    rw [opStatus, rejectedTriplets_eq_zero e rfl rfl, if_neg (not_not.2 rfl)]
    simpa [Instr.wellFormed, opAnswer] using cmdWord_eq_packResponse kind
  | decFlow b0 b1 b2 =>
    have hmask := rejectedTriplets_decFlow e b0 b1 b2
    simp only [opAnswer]
    split_ifs at hmask ⊢
    · exact eq_packResponse_of_mismatch hmask (by decide) (by decide)
    · exact eq_packResponse_of_ok hmask rfl (okWord_eq_packResponse ..)
  | decSerial b0 b1 b2 b3 b4 b5 =>
    have hmask := rejectedTriplets_decSerial e b0 b1 b2 b3 b4 b5
    simp only [opAnswer]
    split_ifs at hmask ⊢
    case neg => exact eq_packResponse_of_ok hmask rfl (okWord_eq_packResponse ..)
    all_goals exact eq_packResponse_of_mismatch hmask (by decide) (by decide)
  | crcStep | crcPair =>
    exact eq_packResponse_of_ok (rejectedTriplets_eq_zero e rfl rfl) rfl (okWord_eq_packResponse ..)
  | crcCheck in1 in2 exp =>
    refine eq_packResponse_of_ok (q := [if crcFold2 in1 in2 = exp then 1 else 0])
      (rejectedTriplets_eq_zero e rfl rfl) rfl ?_
    simp only [opAnswer]
    split_ifs <;> decide
  | cfgWrite val =>
    have hword : (0x00000000000000 : Word56) = packResponse .ok 0 [] := by decide
    exact eq_packResponse_of_ok (rejectedTriplets_eq_zero e rfl rfl) rfl hword
  | cfgRead =>
    refine eq_packResponse_of_ok (q := [if e = true then 1 else 0]) (rejectedTriplets_eq_zero e rfl rfl) rfl ?_
    cases e <;> decide

/-- STATUS of every answer. -/
@[simp] theorem statusField_opAnswer (e : Bool) (i : Instr) : statusField (opAnswer e i).2 = (opStatus e i).code := by
  obtain ⟨q, hword⟩ := opAnswer_eq_packResponse e i
  rw [hword, statusField_packResponse]

/-- FAILMASK of every answer. -/
@[simp] theorem failmaskField_opAnswer (e : Bool) (i : Instr) :
    failmaskField (opAnswer e i).2 = rejectedTriplets e i := by
  obtain ⟨q, hword⟩ := opAnswer_eq_packResponse e i
  rw [hword, failmaskField_packResponse]

/-- The code 1 is CRC_MISMATCH's alone (60_exceptions.md R181). -/
theorem status_code_eq_one_iff (st : Status) : st.code = 1 ↔ st = .crcMismatch := by cases st <;> decide

/-- The code 3 is never produced (60_exceptions.md R181). -/
theorem status_code_ne_three (st : Status) : st.code ≠ 3 := by cases st <;> decide

/-- STATUS is CRC_MISMATCH exactly when a triplet is rejected (60_exceptions.md R182). -/
theorem statusField_opAnswer_eq_one_iff (e : Bool) (i : Instr) :
    statusField (opAnswer e i).2 = 1 ↔ rejectedTriplets e i ≠ 0 := by
  rw [statusField_opAnswer, status_code_eq_one_iff, opStatus]
  split_ifs with hrejected
  · exact iff_of_true rfl hrejected
  all_goals exact iff_of_false (by decide) hrejected

/-- The ill-formed operations are CMD.BUILD with KIND 0x03 to 0xFF (30_encoding.md R68). -/
theorem wellFormed_eq_false_iff (i : Instr) :
    i.wellFormed = false ↔ ∃ kind, i = .cmdBuild kind ∧ 0x03 ≤ kind.toNat := by
  cases i with
  | cmdBuild kind => simp [Instr.wellFormed, Nat.lt_iff_add_one_le]
  | _ => simp [Instr.wellFormed]

/-- STATUS is ILLEGAL_REQUEST exactly for the ill-formed operations, which have no triplet (60_exceptions.md R183, R186). -/
theorem statusField_opAnswer_eq_two_iff (e : Bool) (i : Instr) :
    statusField (opAnswer e i).2 = 2 ↔ ∃ kind, i = .cmdBuild kind ∧ 0x03 ≤ kind.toNat := by
  rw [← wellFormed_eq_false_iff]
  constructor
  · intro hstatus
    exact Bool.eq_false_iff.2 fun hwf => statusField_opAnswer_ne_two hwf e hstatus
  · intro hwf
    obtain ⟨kind, rfl, -⟩ := (wellFormed_eq_false_iff i).1 hwf
    rw [statusField_opAnswer, opStatus, rejectedTriplets_eq_zero e rfl rfl, if_neg (not_not.2 rfl), hwf]
    rfl

/-- Only CFG.WRITE changes CRC_EN, and its STATUS is OK (60_exceptions.md R187). -/
theorem opAnswer_crcEn_of_statusField_ne_zero {e : Bool} {i : Instr} (h : statusField (opAnswer e i).2 ≠ 0) :
    (opAnswer e i).1 = e := by
  cases i with
  | cfgWrite val =>
    have hok : statusField 0x00000000000000 = 0 := by decide
    exact absurd hok h
  | _ => rfl

/-- Bits 52 and 53 of a response word are the bits of FAILMASK (30_encoding.md R62). -/
theorem getLsbD_failmaskField (rsp : Word56) (j : Nat) (hj : j < 2) :
    (failmaskField rsp).getLsbD j = rsp.getLsbD (52 + j) := by
  simp [failmaskField, hj]

end Sys2Proof.Proofs
end

section
/-! PROOFS. Outcomes and instances: the causes of each STATUS, what FAILMASK names, and several instances side by side
(60_exceptions.md R182, R183, R193). -/

namespace Sys2Proof.Proofs

open Sys2Proof Sys2Proof.Machine

/-! ### Status and failure mask -/

/-- Settles O16: every answer has the outcome and the mask of the triplets it rejects, and one that is not OK has no result
and leaves CRC_EN as it was. -/
theorem statusCausesByOperation : Obligations.StatusCausesByOperation := by
  refine ⟨fun w o s hd => accept_of_decode_unassigned hd s, fun i s t hexec => ?_⟩
  obtain rfl := eq_answered_of_exec hexec
  have hmismatch_iff := statusField_opAnswer_eq_one_iff s.cfc.crcEn i
  simp only [answered, failmaskField_opAnswer]
  refine ⟨statusField_opAnswer_eq_two_iff _ i, ?_, ?_, ?_, ?_, ?_, fun herror => ⟨?_, ?_⟩⟩
  · rw [hmismatch_iff, rejectedTriplets_ne_zero_iff, tripletZeroFails_iff, halfOneFails_iff]
    simp only [and_or_left, exists_or, or_assoc]
  · rw [statusField_opAnswer]
    exact status_code_ne_three _
  · rintro b0 b1 b2 rfl hmismatch
    have hrejected := hmismatch_iff.1 hmismatch
    rw [rejectedTriplets_decFlow] at hrejected ⊢
    exact if_pos (not_not.1 fun hpass => hrejected (if_neg hpass))
  · rintro b0 b1 b2 b3 b4 b5 rfl hmismatch
    obtain ⟨hen, -⟩ := (rejectedTriplets_ne_zero_iff _ _).1 (hmismatch_iff.1 hmismatch)
    rw [hen, rejectedTriplets_true_decSerial]
  · exact fun hother => not_not.1 fun hrejected => hother (hmismatch_iff.2 hrejected)
  · exact (opAnswer_ok_or_resultField_eq_zero _ i).resolve_left herror
  · rw [opAnswer_crcEn_of_statusField_ne_zero herror]

/-- Settles O17: the FAILMASK of an operation's answer is the mask of the triplets it rejects, and the error word of an
unassigned OPC names none. -/
theorem failmaskNamesTheFailedTriplets : Obligations.FailmaskNamesTheFailedTriplets := by
  intro w s t haccept
  obtain rfl := eq_answered_of_accept haccept
  simp only [answered]
  obtain ⟨i, hd, -⟩ | ⟨o, hd, -⟩ := accept_cases w s
  · rw [txnExec_of_decode_op hd, hd, ← getLsbD_failmaskField _ 0 (by decide), ← getLsbD_failmaskField _ 1 (by decide),
      failmaskField_opAnswer, getLsbD_zero_rejectedTriplets, getLsbD_one_rejectedTriplets]
    simp only [Decoded.op.injEq, Bool.and_eq_true, ← tripletZeroFails_iff, ← halfOneFails_iff, true_and]
    refine ⟨(statusField_opAnswer_eq_one_iff _ i).symm, fun hen => ?_⟩
    rw [hen, rejectedTriplets_false]
  · rw [txnExec_of_decode_unassigned hd, hd]
    simp only [reduceCtorEq, false_and, exists_false, or_false, and_false, iff_false]
    exact ⟨by decide, by decide, by decide, fun _ => by decide⟩

/-! ### Several instances -/

/-- What an edge at place `k` can do: the CFC there, if any, makes its own step to some `t`, which is put in its place; where
there is none the list stays as it is (60_exceptions.md R193). -/
theorem stepAt_eq_next_iff (k : Nat) (y z : System) :
    System.stepAt k y = .next z ↔
      ∃ t, (∀ s, y.cfcs[k]? = some s → step s = .next t) ∧ z = { cfcs := y.cfcs.set k t } := by
  constructor
  · intro h
    unfold System.stepAt at h
    split at h
    case h_1 hnone =>
      cases h
      refine ⟨State.reset, fun s hs => absurd (hnone.symm.trans hs) nofun, ?_⟩
      rw [List.set_eq_of_length_le (List.getElem?_eq_none_iff.1 hnone)]
    case h_2 s hs =>
      split at h
      case h_1 t ht =>
        cases h
        exact ⟨t, fun s' hs' => Option.some.inj (hs.symm.trans hs') ▸ ht, rfl⟩
      all_goals exact nomatch h
  · rintro ⟨t, hstep, rfl⟩
    cases hk : y.cfcs[k]? with
    | none => simp [System.stepAt, hk, List.set_eq_of_length_le (List.getElem?_eq_none_iff.1 hk)]
    | some s => exact stepAt_of_step hk (hstep s hk)

/-- Edges at two different instances commute: each reads and writes its own place of the list (60_exceptions.md R193). -/
theorem stepAt_comm {j k : Nat} {y y1 y2 z : System} (hjk : j ≠ k) (hj : System.stepAt j y = .next y1)
    (hz : System.stepAt k y1 = .next z) (hk : System.stepAt k y = .next y2) : System.stepAt j y2 = .next z := by
  obtain ⟨t, ht, rfl⟩ := (stepAt_eq_next_iff _ _ _).1 hj
  obtain ⟨u, hu, rfl⟩ := (stepAt_eq_next_iff _ _ _).1 hz
  rw [List.getElem?_set_ne hjk] at hu
  have hy2 : System.stepAt k y = .next { cfcs := y.cfcs.set k u } := (stepAt_eq_next_iff _ _ _).2 ⟨u, hu, rfl⟩
  cases hy2.symm.trans hk
  refine (stepAt_eq_next_iff _ _ _).2 ⟨t, ?_, ?_⟩
  · rwa [List.getElem?_set_ne hjk.symm]
  · rw [List.set_comm _ _ hjk]

/-- Settles O45: the reset system is a list of reset states, and an edge at one CFC sets its place of the list alone. -/
theorem instancesShareNothing : Obligations.InstancesShareNothing := by
  refine ⟨List.length_replicate, Nat.succ_pos _, fun s hs => List.eq_of_mem_replicate hs, fun k y z h => ?_,
    fun j k y y1 y2 z hjk h1 hz h2 => stepAt_comm hjk h1 hz h2⟩
  refine ⟨?_, fun j hj => ?_, fun s t hs ht => ?_⟩
  all_goals obtain ⟨u, hu, rfl⟩ := (stepAt_eq_next_iff _ _ _).1 h
  · exact List.length_set
  · exact List.getElem?_set_ne hj.symm
  · obtain ⟨hlt, -⟩ := List.getElem?_eq_some_iff.1 hs
    cases (hu s hs).symm.trans ht
    exact List.getElem?_set_self hlt

end Sys2Proof.Proofs
end

section
/-! PROOFS. The reset edge and the ports during reset (70_reset_and_hazards.md R211, R212). -/

namespace Sys2Proof.Proofs

open Sys2Proof Sys2Proof.Machine

/-- An edge with `rst` = 1 is the reset edge, whatever else is on the ports (70_reset_and_hazards.md R211). -/
theorem step_of_rst {s : State} (h : s.pins.rst = true) : step s = .next s.resetEdge.tick := if_pos h

theorem not_reqReady_of_rst {s : State} (h : s.pins.rst = true) : s.reqReady = false := by
  simp [State.reqReady, h]

theorem not_rspValid_of_rst {latency : Nat} {s : State} (h : s.pins.rst = true) : s.rspValid latency = false := by
  simp [State.rspValid, h]

theorem not_requestTransfers_of_rst {s : State} (h : s.pins.rst = true) : s.requestTransfers = false := by
  simp [State.requestTransfers, not_reqReady_of_rst h]

/-- Settles O30: the reset edge leaves nothing pending and CRC_EN = 1, and from there exactly the requests that transfer take
effect in order. -/
theorem resetEdgeDiscardsTheTransaction : Obligations.ResetEdgeDiscardsTheTransaction := by
  intro s t hrst hstep
  cases (step_of_rst hrst).symm.trans hstep
  refine ⟨rfl, not_requestTransfers_of_rst hrst, fun k u hno hrun => ?_⟩
  obtain ⟨-, hwords⟩ := tookEffectInOrder_of_run hno hrun
  have hpending : s.resetEdge.tick.pending = [] := pending_of_not_rspFull rfl
  rw [hpending, List.append_nil] at hwords
  exact hwords

/-- Settles O31: the reset edge leaves RSP_FULL = 0, so `rst` = 0 alone makes `req_ready` = 1 in the next cycle. -/
theorem portsDuringReset : Obligations.PortsDuringReset := by
  intro s hrst
  refine ⟨not_reqReady_of_rst hrst, not_rspValid_of_rst hrst, fun t hstep hoff => ?_⟩
  cases (step_of_rst hrst).symm.trans hstep
  exact ⟨(reqReady_iff _).2 ⟨hoff, rfl⟩, fun hvalid => (requestTransfers_iff _).2 ⟨hvalid, hoff, rfl⟩⟩

end Sys2Proof.Proofs
end

section
/-! SUPPORT. What decoding keeps of a word, and the masks of 30_encoding.md R67 and R71 byte by byte: two words that agree under
a mask have the same bytes where the mask is whole. -/

namespace Sys2Proof.Proofs

open Sys2Proof Sys2Proof.Machine

/-! ### Fields under a mask -/

theorem opcField_and (w m : Word56) : opcField (w &&& m) = opcField w &&& opcField m := BitVec.extractLsb'_and

theorem payloadByte_and (w m : Word56) (i : Nat) : payloadByte (w &&& m) i = payloadByte w i &&& payloadByte m i :=
  BitVec.extractLsb'_and

/-- Words that agree under a mask have the same OPC where the mask has all of OPC. -/
theorem opcField_congr_of_and {w v m : Word56} (h : w &&& m = v &&& m) (hm : opcField m = BitVec.allOnes 8) :
    opcField w = opcField v := by
  have hopc := congrArg opcField h
  simpa only [opcField_and, hm, BitVec.and_allOnes] using hopc

/-- Words that agree under a mask have the same payload byte where the mask has all of it. -/
theorem payloadByte_congr_of_and {w v m : Word56} {i : Nat} (h : w &&& m = v &&& m)
    (hm : payloadByte m i = BitVec.allOnes 8) : payloadByte w i = payloadByte v i := by
  have hbyte := congrArg (payloadByte · i) h
  simpa only [payloadByte_and, hm, BitVec.and_allOnes] using hbyte

/-! ### What an operation keeps of its word -/

/-- The operation decoded has the word's OPC, and its operands are the word's first payload bytes (30_encoding.md R65, R66). -/
theorem opc_and_operands_of_decode {w : Word56} {i : Instr} (h : decode w = .op i) :
    opcField w = i.opc ∧ i.operands = (List.range i.operands.length).map (payloadByte w) := by
  obtain ⟨ho, hd⟩ | ⟨ho, hd⟩ | ⟨ho, hd⟩ | ⟨ho, hd⟩ | ⟨ho, hd⟩ | ⟨ho, hd⟩ | ⟨ho, hd⟩ | ⟨ho, hd⟩ | ⟨-, hd⟩ := decode_cases w
  all_goals cases hd.symm.trans h
  all_goals exact ⟨ho, rfl⟩

/-- The listed bits are OPC and one whole payload byte for each operand, from P[0] on (30_encoding.md R71). -/
theorem listedMask_eq_packWord (i : Instr) :
    listedMask i = packWord (BitVec.allOnes 8) (List.replicate i.operands.length (BitVec.allOnes 8)) := by
  cases i
  all_goals
    simp only [listedMask, Instr.operands, List.length]
    decide

/-! ### The bits that make a difference -/

/-- Every operation reads the whole OPC (30_encoding.md R67). -/
theorem opcField_readMask (opc : Byte) : opcField (readMask opc) = BitVec.allOnes 8 := by
  simp only [readMask]
  split_ifs <;> decide

/-- Accept reads of a word what the decoder reads. -/
theorem accept_congr_of_decode {w v : Word56} (h : decode w = decode v) (s : State) : accept w s = accept v s := by
  simp only [accept, h]

/-- CFG.WRITE reads bit 0 of VAL alone (42_control.md R161). -/
theorem exec_cfgWrite_congr {a b : Byte} (h : a.getLsbD 0 = b.getLsbD 0) (s : State) :
    exec (.cfgWrite a) s = exec (.cfgWrite b) s := by
  simp only [exec, execCfgWrite, State.writeCfg, h]

theorem accept_of_decode_op {w : Word56} {i : Instr} (h : decode w = .op i) (s : State) : accept w s = exec i s := by
  simp only [accept, h]

/-- Words with OPC 0x20 that agree in bit 40, bit 0 of VAL, are accepted alike (30_encoding.md R67). -/
theorem accept_congr_of_cfgWrite {w v : Word56} (hw : opcField w = 0x20) (hv : opcField v = 0x20)
    (h : w.getLsbD 40 = v.getLsbD 40) (s : State) : accept w s = accept v s := by
  have hdw : decode w = .op (.cfgWrite (payloadByte w 0)) := by simp [decode, hw]
  have hdv : decode v = .op (.cfgWrite (payloadByte v 0)) := by simp [decode, hv]
  rw [accept_of_decode_op hdw, accept_of_decode_op hdv]
  exact exec_cfgWrite_congr (by simpa [payloadByte] using h) s

/-- Words that agree in the bits read and are no CFG.WRITE decode alike: each payload byte read is read whole
(30_encoding.md R66, R67). -/
theorem decode_congr_of_readMask {w v : Word56} (h : w &&& readMask (opcField w) = v &&& readMask (opcField w))
    (hne : opcField w ≠ 0x20) : decode w = decode v := by
  have hopc : opcField w = opcField v := opcField_congr_of_and h (opcField_readMask _)
  have hbyte : ∀ i, payloadByte (readMask (opcField w)) i = BitVec.allOnes 8 → payloadByte w i = payloadByte v i :=
    fun _ => payloadByte_congr_of_and h
  obtain ⟨ho, -⟩ | ⟨ho, -⟩ | ⟨ho, -⟩ | ⟨ho, -⟩ | ⟨ho, -⟩ | ⟨ho, -⟩ | ⟨ho, -⟩ | ⟨ho, -⟩ | ⟨hmem, hd⟩ := decode_cases w
  case inr.inr.inr.inr.inr.inr.inl => exact absurd ho hne
  case inr.inr.inr.inr.inr.inr.inr.inr =>
    rw [hd, hopc, decode_of_opcField_notMem (hopc ▸ hmem)]
  all_goals
    rw [ho] at hbyte hopc
    simp (disch := decide) [decode, ho, ← hopc, hbyte]

end Sys2Proof.Proofs
end

section
/-! PROOFS. The encoding: decode and encode agree, and what a word's other bits do not change (30_encoding.md R60, R64, R67,
R71). -/

namespace Sys2Proof.Proofs

open Sys2Proof Sys2Proof.Machine

/-- Settles O1, by the operation: its word has its OPC, which selects the branch, and its operands at their payload bytes. -/
theorem decodeOfEncodeIsTheOperation : Obligations.DecodeOfEncodeIsTheOperation := by
  intro i
  have hopc : opcField (encode i) = i.opc := opcField_encode i
  have hbyte : ∀ n, n < 6 → payloadByte (encode i) n = i.operands.getD n 0 := payloadByte_packWord _ _
  cases i
  all_goals simp [decode, hopc, hbyte, Instr.opc, Instr.operands]

/-- Settles O2, byte by byte: OPC and the listed bytes are the word's own, and every other byte is cleared. -/
theorem encodeOfDecodeClearsUnlistedBytes : Obligations.EncodeOfDecodeClearsUnlistedBytes := by
  intro w i hd
  obtain ⟨hopc, hops⟩ := opc_and_operands_of_decode hd
  rw [listedMask_eq_packWord, encode]
  refine word56_ext ?_ fun n hn => ?_
  · rw [opcField_and, opcField_packWord, opcField_packWord, BitVec.and_allOnes, hopc]
  · rw [payloadByte_and, payloadByte_packWord _ _ n hn, payloadByte_packWord _ _ n hn, hops]
    by_cases hlt : n < i.operands.length
    · simp [hlt, -BitVec.reduceAllOnes]
    · simp [hlt]

/-- Settles O6: words that agree in the bits read decode alike, but for CFG.WRITE, which reads one bit of VAL. -/
theorem dontCareBitsMakeNoDifference : Obligations.DontCareBitsMakeNoDifference := by
  intro w v s h
  by_cases hw : opcField w = 0x20
  · have hv : opcField v = 0x20 := hw ▸ (opcField_congr_of_and h (opcField_readMask _)).symm
    have hbit := congrArg (BitVec.getLsbD · 40) h
    rw [hw] at hbit
    exact accept_congr_of_cfgWrite hw hv (by simpa [readMask] using hbit) s
  · exact accept_congr_of_decode (decode_congr_of_readMask h hw) s

/-- Settles O3: each word is written out, so the decoder evaluates. -/
theorem specWordsDecode : Obligations.SpecWordsDecode := by
  unfold Obligations.SpecWordsDecode
  decide

end Sys2Proof.Proofs
end

section
/-! PROOFS. The operations: what each answers, and that Accept agrees with the layout tables (30_encoding.md R76,
40_frame_codec.md, 41_crc.md, 42_control.md). Each statement is `exec_eq_opAnswer` or `accept_eq_txnExec` at one operation. -/

namespace Sys2Proof.Proofs

open Sys2Proof Sys2Proof.Machine

/-! ### The frame codec -/

/-- The word CMD.BUILD answers, by a chain of comparisons of KIND (40_frame_codec.md R101). -/
theorem cmdWord_eq_ite (kind : Byte) :
    cmdWord kind =
      if kind.toNat = 0 then 0x00100000000000
      else if kind.toNat = 1 then 0x00200000000000
      else if kind.toNat = 2 then 0x0031AE00000000
      else 0x80000000000000 := by
  revert kind
  decide

/-- The word DEC.SERIAL answers, by CRC_EN and then by each half (40_frame_codec.md R105). -/
theorem opAnswer_decSerial_eq_ite (e : Bool) (b0 b1 b2 b3 b4 b5 : Byte) :
    (opAnswer e (.decSerial b0 b1 b2 b3 b4 b5)).2 =
      if e = false then okWord b0 b1 b3 b4 b2 b5
      else if crcFold2 b0 b1 = b2 then
        (if crcFold2 b3 b4 = b5 then okWord b0 b1 b3 b4 b2 b5 else 0x60000000000000)
      else (if crcFold2 b3 b4 = b5 then 0x50000000000000 else 0x70000000000000) := by
  cases e with
  | false => exact opAnswer_false_decSerial b0 b1 b2 b3 b4 b5
  | true =>
    by_cases hzero : crcFold2 b0 b1 = b2
    · by_cases hone : crcFold2 b3 b4 = b5 <;> simp [opAnswer, hzero, hone]
    · by_cases hone : crcFold2 b3 b4 = b5 <;> simp [opAnswer, hzero, hone]

/-- Settles O7, by the command-frame table written as comparisons. -/
theorem cmdBuildAnswersTheCommandFrame : Obligations.CmdBuildAnswersTheCommandFrame := by
  intro k s
  rw [exec_eq_opAnswer, ← cmdWord_eq_ite]
  rfl

/-- Settles O8: the check compares the fold with the CRC byte, on whichever side each stands. -/
theorem decFlowAnswersValueOrMismatch : Obligations.DecFlowAnswersValueOrMismatch := by
  intro b0 b1 b2 s
  rw [exec_eq_opAnswer]
  simp only [answered, opAnswer, ne_comm (a := b2)]

/-- Settles O9, by CRC_EN and the two halves. -/
theorem decSerialAnswersIdOrFailedHalves : Obligations.DecSerialAnswersIdOrFailedHalves := by
  intro b0 b1 b2 b3 b4 b5 s
  rw [exec_eq_opAnswer, ← opAnswer_decSerial_eq_ite]
  rfl

/-! ### The CRC validator -/

/-- Settles O10: the answer is one update, and an update is one look-up in the table. -/
theorem crcStepAnswersOneUpdate : Obligations.CrcStepAnswersOneUpdate :=
  fun d c s => ⟨exec_eq_opAnswer (.crcStep d c) s, crc8_eq_crcTable d c⟩

/-- The first result byte of a CRC.STEP's answer is the updated CRC, which the next CRC.STEP chains on (41_crc.md R135). -/
theorem payloadByte_crcStep (d c : Byte) (s : State) :
    payloadByte (answered s (opAnswer s.cfc.crcEn (.crcStep d c))).cfc.rspBuf 0 = crc8 d c :=
  payloadByte_okWord _ _ _ _ _ _ 0 (by decide)

/-- Settles O11: the fold is two updates from the seed, so the second of two chained CRC.STEPs answers the fold too. -/
theorem crcPairAnswersTheSeededFold : Obligations.CrcPairAnswersTheSeededFold := by
  refine fun a b s => ⟨exec_eq_opAnswer (.crcPair a b) s, crcFold2_eq_tableFold2 a b, fun t u ht hu => ?_⟩
  obtain rfl := eq_answered_of_exec ht
  obtain rfl := eq_answered_of_exec hu
  rw [Instr.crcFirst, payloadByte_crcStep, exec_eq_opAnswer]
  rfl

/-- Settles O12: the answer carries the outcome of the comparison, and a failed one is no error. -/
theorem crcCheckAnswersMatchAsResult : Obligations.CrcCheckAnswersMatchAsResult :=
  fun a b e s => exec_eq_opAnswer (.crcCheck a b e) s

/-! ### The configuration register -/

/-- Settles O13: bit 0 of VAL is VAL's remainder by 2. -/
theorem cfgWriteSetsCrcEnFromBitZero : Obligations.CfgWriteSetsCrcEnFromBitZero :=
  fun v s => exec_eq_opAnswer (.cfgWrite v) s

/-- Settles O14: the answer is CFG's one bit of storage, moved to the first result byte. -/
theorem cfgReadAnswersCrcEn : Obligations.CfgReadAnswersCrcEn := fun s => exec_eq_opAnswer .cfgRead s

/-! ### Accept -/

/-- Settles O15: the decoder's cases match those of the layout tables, and the loop's CRC is the table's. -/
theorem acceptAgreesWithTheLayoutTables : Obligations.AcceptAgreesWithTheLayoutTables := accept_eq_txnExec

end Sys2Proof.Proofs
end

section
/-! SUPPORT. Every answer is a legal response word, and what CRC_EN is after a request (30_encoding.md R62, R63, 60_exceptions.md
R181, R182, 42_control.md R161). -/

namespace Sys2Proof.Proofs

open Sys2Proof Sys2Proof.Machine

/-- What makes a response word legal (30_encoding.md R62, R63, 60_exceptions.md R181, R182). -/
theorem legalResponse_iff (rsp : Word56) :
    legalResponse rsp = true ↔
      statusField rsp ≠ 3 ∧ reservedField rsp = 0 ∧ (failmaskField rsp ≠ 0 ↔ statusField rsp = 1) ∧
        (statusField rsp = 0 ∨ resultField rsp = 0) := by
  have hmask : ((failmaskField rsp != 0) = (statusField rsp == 1)) ↔ (failmaskField rsp ≠ 0 ↔ statusField rsp = 1) := by
    rw [Bool.eq_iff_iff, bne_iff_ne, beq_iff_eq]
  simp only [legalResponse, Bool.and_eq_true, Bool.or_eq_true, bne_iff_ne, beq_iff_eq, hmask, and_assoc]

/-- The reserved bits of every answer are 0 (30_encoding.md R62). -/
theorem reservedField_opAnswer (e : Bool) (i : Instr) : reservedField (opAnswer e i).2 = 0 := by
  obtain ⟨q, hword⟩ := opAnswer_eq_packResponse e i
  rw [hword, reservedField_packResponse]

/-- Every operation answers a legal response word. -/
theorem legalResponse_opAnswer (e : Bool) (i : Instr) : legalResponse (opAnswer e i).2 = true := by
  refine (legalResponse_iff _).2 ⟨?_, reservedField_opAnswer e i, ?_, opAnswer_ok_or_resultField_eq_zero e i⟩
  · rw [statusField_opAnswer]
    exact status_code_ne_three _
  · rw [failmaskField_opAnswer, statusField_opAnswer_eq_one_iff]

/-- Every request is answered with a legal response word. -/
theorem legalResponse_txnExec (e : Bool) (req : Word56) : legalResponse (txnExec e req).2 = true := by
  cases hd : decode req with
  | op i =>
    rw [txnExec_of_decode_op hd]
    exact legalResponse_opAnswer e i
  | unassignedOpc o =>
    have hlegal : legalResponse 0x80000000000000 = true := by decide
    rwa [txnExec_of_decode_unassigned hd]

/-- The top byte of a legal response, from its three fields (30_encoding.md section 1). -/
theorem opcField_of_legalResponse {rsp : Word56} (h : legalResponse rsp = true) :
    opcField rsp ∈ ([0x00, 0x50, 0x60, 0x70, 0x80] : List Byte) := by
  have htop : ∀ top : Byte, top.extractLsb' 6 2 ≠ 3 → top.extractLsb' 0 4 = 0 →
      (top.extractLsb' 4 2 ≠ 0 ↔ top.extractLsb' 6 2 = 1) → top ∈ ([0x00, 0x50, 0x60, 0x70, 0x80] : List Byte) := by
    decide
  obtain ⟨hstatus, hreserved, hmask, -⟩ := (legalResponse_iff rsp).1 h
  refine htop _ ?_ ?_ ?_
  · rwa [extractLsb'_opcField _ 6 2 (by decide)]
  · rwa [extractLsb'_opcField _ 0 4 (by decide)]
  · rwa [extractLsb'_opcField _ 4 2 (by decide), extractLsb'_opcField _ 6 2 (by decide)]

/-- A request with OPC 0x20 leaves CRC_EN at bit 40 of its word, bit 0 of VAL (42_control.md R161). -/
theorem txnExec_crcEn_of_opcField_eq {req : Word56} (h : opcField req = 0x20) (e : Bool) :
    (txnExec e req).1 = req.getLsbD 40 := by
  have hd : decode req = .op (.cfgWrite (payloadByte req 0)) := by simp [decode, h]
  have hbit : ∀ v : Byte, (v.toNat % 2 == 1) = v.getLsbD 0 := by decide
  rw [txnExec_of_decode_op hd, opAnswer, hbit]
  simp [payloadByte]

/-- A response that transfers was in flight (10_state.md R30). -/
theorem rspFull_of_responseTransfers {latency : Nat} {s : State} (h : s.responseTransfers latency = true) :
    s.cfc.rspFull = true := by
  obtain ⟨hvalid, -⟩ := (responseTransfers_iff _ _).1 h
  obtain ⟨-, hfull, -⟩ := (rspValid_iff _ _).1 hvalid
  exact hfull

/-- Every clock edge answers a next state. -/
theorem step_answers (s : State) : ∃ t, step s = .next t := by
  cases htr : s.requestTransfers with
  | true => exact ⟨_, step_of_requestTransfers htr⟩
  | false => exact ⟨_, clockEdge_of_not_requestTransfers htr⟩

end Sys2Proof.Proofs
end

section
/-! PROOFS. What every step keeps: the machine never stops, the responses are legal words, and CRC_EN changes by CFG.WRITE or
reset alone (10_state.md sections 2 to 4, 30_encoding.md section 1, 60_exceptions.md section 1). -/

namespace Sys2Proof.Proofs

open Sys2Proof Sys2Proof.Machine

/-! ### The invariant -/

/-- Right after the transfer edge the invariant holds: the response is legal and dated by the edge just passed. -/
theorem inv_of_requestTransfers {s t : State} (hinv : Inv s) (htr : s.requestTransfers = true)
    (hstep : step s = .next t) : Inv t := by
  obtain ⟨-, htaken⟩ := hinv
  rw [step_of_requestTransfers htr] at hstep
  cases hstep
  exact ⟨fun _ => ⟨legalResponse_txnExec _ _, Nat.lt_succ_self s.cycle⟩, htaken⟩

/-- A Deliver hands over the word in flight, which the invariant says is legal. -/
theorem inv_deliver_tick {s : State} (hinv : Inv s) (hfull : s.cfc.rspFull = true) : Inv s.deliver.tick := by
  obtain ⟨hflight, htaken⟩ := hinv
  obtain ⟨hlegal, -⟩ := hflight hfull
  refine ⟨nofun, fun w hw => ?_⟩
  obtain hw | hw := List.mem_append.1 hw
  · exact htaken w hw
  · rwa [List.mem_singleton.1 hw]

/-- A reset edge leaves nothing in flight and takes nothing back. -/
theorem inv_resetEdge_tick {s : State} (hinv : Inv s) : Inv s.resetEdge.tick := by
  obtain ⟨-, htaken⟩ := hinv
  exact ⟨nofun, htaken⟩

/-- An edge that passes only moves the transfer edge further into the past. -/
theorem inv_tick {s : State} (hinv : Inv s) : Inv s.tick := by
  obtain ⟨hflight, htaken⟩ := hinv
  exact ⟨fun hfull => (hflight hfull).imp_right Nat.lt_succ_of_lt, htaken⟩

/-- Settles O34, by the kind of the edge. -/
theorem stepKeepsInv : Obligations.StepKeepsInv := by
  intro s t hinv hstep
  obtain ⟨-, rfl⟩ | ⟨-, htr, -⟩ | ⟨-, -, hresp, rfl⟩ | ⟨-, -, -, rfl⟩ := clockEdge_cases hstep
  · exact inv_resetEdge_tick hinv
  · exact inv_of_requestTransfers hinv htr hstep
  · exact inv_deliver_tick hinv (rspFull_of_responseTransfers hresp)
  · exact inv_tick hinv

/-- Settles O33: nothing is in flight and nothing has been taken. -/
theorem invHoldsAtReset : Obligations.InvHoldsAtReset := fun _ _ => ⟨nofun, nofun⟩

/-- Settles O21: the answer is legal, and the fields of a legal word leave its top byte five values. -/
theorem responseTopByteIsOneOfFive : Obligations.ResponseTopByteIsOneOfFive := by
  intro w s t haccept
  obtain rfl := eq_answered_of_accept haccept
  exact opcField_of_legalResponse (legalResponse_txnExec _ _)

/-! ### Steps -/

/-- Settles O23: every operation has an answer, and so has every kind of edge. -/
theorem theMachineNeverStops : Obligations.TheMachineNeverStops :=
  ⟨fun i s => ⟨_, exec_eq_opAnswer i s⟩, step_answers⟩

/-- Settles O24: the edge is a request transfer, and Accept runs the operation decoded. -/
theorem stepRunsTheDecodedOperation : Obligations.StepRunsTheDecodedOperation := by
  intro s i hrst hvalid hempty hd
  have htr : s.requestTransfers = true := (requestTransfers_iff s).2 ⟨hvalid, hrst, hempty⟩
  exact (clockEdge_of_requestTransfers htr).trans (accept_of_decode_op hd _)

/-- Settles O32, by the kind of the edge: only reset and a request transfer write CRC_EN, and of the requests only CFG.WRITE. -/
theorem onlyCfgWriteOrResetChangesCrcEn : Obligations.OnlyCfgWriteOrResetChangesCrcEn := by
  intro s t hstep hchange
  obtain ⟨hrst, rfl⟩ | ⟨-, htr, -⟩ | ⟨-, -, -, rfl⟩ | ⟨-, -, -, rfl⟩ := clockEdge_cases hstep
  · exact .inl ⟨hrst, rfl⟩
  · rw [step_of_requestTransfers htr] at hstep
    cases hstep
    by_cases hopc : opcField s.pins.reqData = 0x20
    · exact .inr ⟨htr, hopc, txnExec_crcEn_of_opcField_eq hopc _⟩
    · exact absurd (txnExec_crcEn_of_opcField_ne hopc _) hchange
  · exact absurd rfl hchange
  · exact absurd rfl hchange

/-- Settles O28: the Deliver leaves nothing in flight, so the request still offered transfers at the next edge. -/
theorem waitingRequestTransfersAfterTheResponse : Obligations.WaitingRequestTransfersAfterTheResponse := by
  intro s t p q l hin hresp _ hvalid hrst hdata hstep
  cases (step_of_responseTransfers hresp).symm.trans hstep
  have hpins : s.deliver.tick.pins = q := pins_of_inputs_cons (l := l) (by simp [hin])
  have htr : s.deliver.tick.requestTransfers = true :=
    (requestTransfers_iff _).2 ⟨by rw [hpins, hvalid], by rw [hpins, hrst], rfl⟩
  refine ⟨not_requestTransfers_of_rspFull (rspFull_of_responseTransfers hresp), htr, ?_⟩
  rw [← hdata, ← hpins]
  exact clockEdge_of_requestTransfers htr

end Sys2Proof.Proofs
end

section
/-! SUPPORT. Lists of transactions, and runs cut at an edge: what holds of two parts in a row holds of both (10_state.md R27,
20_memory.md R46). -/

namespace Sys2Proof.Proofs

open Sys2Proof Sys2Proof.Machine

/-! ### Lists of transactions -/

/-- Two lists of transitions, enabled one after the other, are enabled as one list. -/
theorem applyAll_append {xs ys : List Txn} {c d : Cfc} (h : Txn.applyAll xs c = some d) :
    Txn.applyAll (xs ++ ys) c = Txn.applyAll ys d := by
  induction xs generalizing c with
  | nil =>
    cases h
    rfl
  | cons x xs ih =>
    rw [Txn.applyAll] at h
    rw [List.cons_append, Txn.applyAll]
    cases hx : x.apply c with
    | none => exact nomatch (hx ▸ h)
    | some c' =>
      rw [hx] at h
      exact ih h

theorem deliveries_append (xs ys : List Txn) :
    Txn.deliveries (xs ++ ys) = Txn.deliveries xs ++ Txn.deliveries ys := by
  induction xs with
  | nil => rfl
  | cons x xs ih => cases x <;> simp [Txn.deliveries, ih]

theorem acceptances_append (xs ys : List Txn) :
    Txn.acceptances (xs ++ ys) = Txn.acceptances xs ++ Txn.acceptances ys := by
  induction xs with
  | nil => rfl
  | cons x xs ih => cases x <;> simp [Txn.acceptances, ih]

/-- The transitions `xs` lead from the triple of `s` to that of `t`, return the words the host took in between, and take the
requests `ws` (10_state.md R27). -/
def LeadsTo (xs : List Txn) (ws : List Word56) (s t : State) : Prop :=
  Txn.applyAll xs s.cfc = some t.cfc ∧ t.delivered = s.delivered ++ Txn.deliveries xs ∧ Txn.acceptances xs = ws

theorem leadsTo_append {xs ys : List Txn} {ws vs : List Word56} {s u t : State} (hsu : LeadsTo xs ws s u)
    (hut : LeadsTo ys vs u t) : LeadsTo (xs ++ ys) (ws ++ vs) s t := by
  obtain ⟨happ, hdel, rfl⟩ := hsu
  obtain ⟨happ', hdel', rfl⟩ := hut
  exact ⟨(applyAll_append happ).trans happ', by rw [hdel', hdel, deliveries_append, List.append_assoc],
    acceptances_append xs ys⟩

/-- An edge that changes neither the triple nor the words taken is no transition. -/
theorem leadsTo_nil {s t : State} (hcfc : t.cfc = s.cfc) (hdel : t.delivered = s.delivered) : LeadsTo [] [] s t :=
  ⟨congrArg some hcfc.symm, hdel.trans (List.append_nil _).symm, rfl⟩

/-- The edge of a request transfer is an Accept (10_state.md R27). -/
theorem leadsTo_accept {s : State} (hempty : s.cfc.rspFull = false) (req : Word56) :
    LeadsTo [.accept req] [req] s (answered s.transferTick (txnExec s.cfc.crcEn req)) := by
  refine ⟨?_, (List.append_nil _).symm, rfl⟩
  simp [Txn.applyAll, Txn.apply, hempty, answered]

/-- The edge of a response transfer is a Deliver of the word in flight (10_state.md R27). -/
theorem leadsTo_deliver {s : State} (hfull : s.cfc.rspFull = true) :
    LeadsTo [.deliver s.cfc.rspBuf] [] s s.deliver.tick := by
  refine ⟨?_, rfl, rfl⟩
  simp [Txn.applyAll, Txn.apply, hfull, State.deliver]

/-- The reset edge is a Reset (10_state.md R27, 70_reset_and_hazards.md R211). -/
theorem leadsTo_reset (s : State) : LeadsTo [.reset] [] s s.resetEdge.tick :=
  ⟨rfl, (List.append_nil _).symm, rfl⟩

/-- Every clock edge is at most one transition, and an Accept exactly at a request transfer (10_state.md R27). -/
theorem leadsTo_of_step {s t : State} (hstep : step s = .next t) :
    ∃ xs, xs.length ≤ 1 ∧ LeadsTo xs (if s.requestTransfers then [s.pins.reqData] else []) s t := by
  obtain ⟨hrst, rfl⟩ | ⟨-, htr, haccept⟩ | ⟨-, htr, hresp, rfl⟩ | ⟨-, htr, -, rfl⟩ := clockEdge_cases hstep
  · rw [not_requestTransfers_of_rst hrst]
    exact ⟨[.reset], Nat.le_refl 1, leadsTo_reset s⟩
  · obtain ⟨-, -, hempty⟩ := (requestTransfers_iff s).1 htr
    rw [eq_answered_of_accept haccept, htr]
    exact ⟨[.accept _], Nat.le_refl 1, leadsTo_accept hempty _⟩
  · rw [htr]
    exact ⟨[.deliver _], Nat.le_refl 1, leadsTo_deliver (rspFull_of_responseTransfers hresp)⟩
  · rw [htr]
    exact ⟨[], Nat.zero_le 1, leadsTo_nil rfl rfl⟩

/-! ### The idle response buffer -/

/-- The machine with another word in RSP_BUF. -/
def withRspBuf (b : Word56) (s : State) : State := { s with cfc := { s.cfc with rspBuf := b } }

/-- A request transfer overwrites RSP_BUF, so what was there makes no difference (10_state.md R26). -/
theorem step_withRspBuf_of_requestTransfers (b : Word56) {s : State} (htr : s.requestTransfers = true) :
    step (withRspBuf b s) = step s := by
  have htr' : (withRspBuf b s).requestTransfers = true := htr
  rw [step_of_requestTransfers htr, step_of_requestTransfers htr']
  rfl

/-- With nothing in flight, an edge without a request transfer leaves RSP_BUF as it is, and does everything else alike
whatever it holds (10_state.md R30; log 12). -/
theorem step_withRspBuf_of_idle (b : Word56) {s : State} (hempty : s.cfc.rspFull = false)
    (htr : s.requestTransfers = false) :
    ∃ t, step s = .next t ∧ step (withRspBuf b s) = .next (withRspBuf b t) := by
  have hquiet : ∀ {u : State}, u.cfc.rspFull = false → u.responseTransfers Config.pLatency = false := fun h => by
    simp [State.responseTransfers, not_rspValid_of_not_rspFull h]
  have htr' : (withRspBuf b s).requestTransfers = false := htr
  have hempty' : (withRspBuf b s).cfc.rspFull = false := hempty
  have hpins : (withRspBuf b s).pins = s.pins := rfl
  refine ⟨_, clockEdge_of_not_requestTransfers htr, (clockEdge_of_not_requestTransfers htr').trans ?_⟩
  rw [hquiet hempty, hquiet hempty', hpins]
  cases s.pins.rst <;> rfl

/-- Runs from two states that differ in an idle RSP_BUF alone: they stay so with no request transferring, or end in the same
state. -/
theorem run_withRspBuf_cases {k : Nat} {b : Word56} {s t t' : State} (hempty : s.cfc.rspFull = false)
    (hrun : run k s = .next t) (hrun' : run k (withRspBuf b s) = .next t') :
    t' = t ∨ (t' = withRspBuf b t ∧ t.cfc.rspFull = false ∧ transfers k s = []) := by
  induction k generalizing s with
  | zero =>
    cases hrun
    cases hrun'
    exact .inr ⟨rfl, hempty, rfl⟩
  | succ k ih =>
    cases htr : s.requestTransfers with
    | true =>
      have hsame : run (k + 1) (withRspBuf b s) = run (k + 1) s := by
        simp only [run, step_withRspBuf_of_requestTransfers b htr]
      cases (hrun'.symm.trans hsame).trans hrun
      exact .inl rfl
    | false =>
      obtain ⟨u, hstep, hstep'⟩ := step_withRspBuf_of_idle b hempty htr
      rw [run_of_step hstep] at hrun
      rw [run_of_step hstep'] at hrun'
      rw [transfers_of_step hstep, htr]
      exact ih (step_keeps_not_rspFull hempty htr hstep) hrun hrun'

/-- While nothing is in flight, the outputs do not show RSP_BUF (10_state.md R30; log 6). -/
theorem portOut_withRspBuf {latency : Nat} {s : State} (b : Word56) (hempty : s.cfc.rspFull = false) :
    (withRspBuf b s).portOut latency = s.portOut latency := by
  have hvalid : s.rspValid latency = false := not_rspValid_of_not_rspFull hempty
  have hvalid' : (withRspBuf b s).rspValid latency = false := hvalid
  simp only [State.portOut, hvalid, hvalid']
  rfl

/-! ### Waiting for the latency -/

/-- The state `k` waiting edges later: the inputs of those edges are used up, and nothing else has changed. -/
def afterWaiting (k : Nat) (s : State) : State := { s with inputs := s.inputs.drop k, cycle := s.cycle + k }

@[simp] theorem afterWaiting_cycle (k : Nat) (s : State) : (afterWaiting k s).cycle = s.cycle + k := rfl

@[simp] theorem afterWaiting_acceptCycle (k : Nat) (s : State) : (afterWaiting k s).acceptCycle = s.acceptCycle := rfl

@[simp] theorem afterWaiting_inputs (k : Nat) (s : State) : (afterWaiting k s).inputs = s.inputs.drop k := rfl

/-- A run of one more edge, by its last edge. -/
theorem run_succ_of_run {k : Nat} {s u t : State} (hrun : run k s = .next u) (hstep : step u = .next t) :
    run (k + 1) s = .next t := by
  induction k generalizing s with
  | zero =>
    cases hrun
    exact run_of_step hstep
  | succ k ih =>
    obtain ⟨v, hfirst, hrun⟩ := run_succ_cases hrun
    rw [run_of_step hfirst]
    exact ih hrun

/-- What the host drives `k` edges later. -/
theorem pins_afterWaiting {k : Nat} {s : State} (hk : k < s.inputs.length) :
    (afterWaiting k s).pins = s.inputs[k] :=
  pins_of_inputs_cons (List.drop_eq_getElem_cons hk)

/-- Before the response's first cycle no edge without reset changes anything, whether the host is ready or not (10_state.md
R30). -/
theorem run_before_latency {k : Nat} {u : State} (hfull : u.cfc.rspFull = true) (hrst : noReset k u)
    (hearly : u.cycle + k ≤ u.acceptCycle + Config.pLatency) : run k u = .next (afterWaiting k u) := by
  induction k generalizing u with
  | zero => rfl
  | succ k ih =>
    have hquiet : u.responseTransfers Config.pLatency = false := by
      have hnow : ¬u.acceptCycle + Config.pLatency ≤ u.cycle := by omega
      simp [State.responseTransfers, State.rspValid, hnow]
    have hstep : step u = .next u.tick := clockEdge_of_waiting hfull (pins_rst_of_noReset hrst) hquiet
    have hrest : run k u.tick = .next (afterWaiting k u.tick) :=
      ih hfull (noReset_of_step hrst hstep) (by rw [tick_cycle, tick_acceptCycle]; omega)
    rw [run_of_step hstep, hrest, afterWaiting, afterWaiting, tick_cycle, tick_inputs, List.drop_tail, Nat.add_assoc,
      Nat.add_comm 1 k]
    rfl

/-- The inputs of the first edges bring no reset when none of them has `rst` = 1. -/
theorem noReset_of_inputs {k : Nat} {u : State} {waits rest : List PortIn} (hin : u.inputs = waits ++ rest)
    (hk : k ≤ waits.length) (hrst : ∀ q ∈ waits, q.rst = false) : noReset k u := by
  intro q hq
  rw [hin, List.take_append_of_le_length hk] at hq
  exact hrst q (List.mem_of_mem_take hq)

/-- From the cycle after the transfer edge, a host that is ready takes the response at the `P_LATENCY`-th edge (00_scope.md R7,
10_state.md R30; log 4). -/
theorem run_latency {u : State} {waits rest : List PortIn} (hfull : u.cfc.rspFull = true)
    (hdate : u.cycle = u.acceptCycle + 1) (hin : u.inputs = waits ++ rest) (hlen : waits.length = Config.pLatency)
    (hready : ∀ q ∈ waits, q.rst = false ∧ q.rspReady = true) :
    run Config.pLatency u = .next (afterWaiting Config.latencyExtra u).deliver.tick := by
  have hlast : Config.latencyExtra < waits.length := hlen ▸ Nat.lt_succ_self _
  have hwait : run Config.latencyExtra u = .next (afterWaiting Config.latencyExtra u) :=
    run_before_latency hfull (noReset_of_inputs hin hlast.le fun q hq => (hready q hq).1)
      (by rw [hdate, Config.pLatency]; omega)
  have hpins : (afterWaiting Config.latencyExtra u).pins = waits[Config.latencyExtra] := by
    rw [pins_afterWaiting (by rw [hin, List.length_append]; omega)]
    simp only [hin, List.getElem_append_left hlast]
  obtain ⟨hrst, hrdy⟩ := hready _ (List.getElem_mem hlast)
  have hoffered : (afterWaiting Config.latencyExtra u).rspValid Config.pLatency = true := by
    refine (rspValid_iff _ _).2 ⟨hpins ▸ hrst, hfull, ?_⟩
    rw [afterWaiting_acceptCycle, afterWaiting_cycle, hdate, Config.pLatency]
    omega
  exact run_succ_of_run hwait
    (step_of_responseTransfers ((responseTransfers_iff _ _).2 ⟨hoffered, hpins ▸ hrdy⟩))

end Sys2Proof.Proofs
end

section
/-! PROOFS. Runs: they refine the transactions, the response is taken after the latency, and an idle response buffer is never
observable (10_state.md sections 3 to 5, 00_scope.md R7). -/

namespace Sys2Proof.Proofs

open Sys2Proof Sys2Proof.Machine

/-- Settles O35, by induction on the number of edges: each is at most one transition. -/
theorem everyRunRefinesTheTransactions : Obligations.EveryRunRefinesTheTransactions := by
  intro k
  induction k with
  | zero =>
    intro s t hrun
    cases hrun
    exact ⟨[], Nat.le_refl 0, leadsTo_nil rfl rfl⟩
  | succ k ih =>
    intro s t hrun
    obtain ⟨u, hstep, hrun⟩ := run_succ_cases hrun
    obtain ⟨xs, hxs, hsu⟩ := leadsTo_of_step hstep
    obtain ⟨ys, hys, hut⟩ := ih u t hrun
    rw [transfers_of_step hstep]
    refine ⟨xs ++ ys, ?_, leadsTo_append hsu hut⟩
    rw [List.length_append]
    omega

/-- Settles O38: the two runs stay alike but for RSP_BUF until a request transfers, and are equal from there on. -/
theorem idleResponseBufferIsUnobservable : Obligations.IdleResponseBufferIsUnobservable := by
  intro k b s t t' hempty hrun hrun'
  obtain rfl | ⟨rfl, hidle, hnone⟩ := run_withRspBuf_cases hempty hrun hrun'
  · exact ⟨rfl, rfl, fun _ => rfl⟩
  · exact ⟨portOut_withRspBuf b hidle, rfl, fun hsome => absurd hnone hsome⟩

/-- Settles O37: until the last of the `P_LATENCY` edges the response is not offered yet, and at the last it is offered and the
host is ready. -/
theorem responseIsTakenAfterTheLatency : Obligations.ResponseIsTakenAfterTheLatency := by
  intro s u p waits rest hin htr hlen hready hstep
  have hfields : u.cfc.rspFull = true ∧ u.cycle = u.acceptCycle + 1 ∧ u.delivered = s.delivered := by
    rw [step_of_requestTransfers htr] at hstep
    cases hstep
    exact ⟨rfl, rfl, rfl⟩
  obtain ⟨hfull, hdate, hdel⟩ := hfields
  have hin : u.inputs = waits ++ rest := by rw [step_inputs hstep, hin, List.tail_cons]
  have hrst : ∀ q ∈ waits, q.rst = false := fun q hq => (hready q hq).left
  refine ⟨fun k t hk hrun => ?_, _, run_latency hfull hdate hin hlen hready, ?_, ?_, rfl, rfl⟩
  · have hwait : run k u = .next (afterWaiting k u) :=
      run_before_latency hfull (noReset_of_inputs hin (hlen ▸ hk.le) hrst) (by omega)
    cases hwait.symm.trans hrun
    exact ⟨hdel, rfl⟩
  · rw [tick_inputs, deliver_inputs, afterWaiting_inputs, List.tail_drop, hin]
    exact List.drop_left' hlen
  · rw [tick_delivered, deliver_delivered, ← hdel]
    rfl

end Sys2Proof.Proofs
end

section
/-! SUPPORT. The CRC as a linear map: its kernel is 0x00, so it is a bijection, and a changed triplet passes its check exactly
when the syndrome of the change is 0x00 (41_crc.md R139 items 3, 6, 7 and 8). -/

namespace Sys2Proof.Proofs

open Sys2Proof Sys2Proof.Machine

/-! ### Linearity -/

/-- A round is linear: the shift is, and the polynomial is applied by the top bit (41_crc.md R130). -/
theorem crcRound_xor (x y : Byte) : crcRound (x ^^^ y) = crcRound x ^^^ crcRound y := by
  have hpoly : (if (x ^^^ y).msb then crcPoly else 0) = (if x.msb then crcPoly else 0) ^^^ (if y.msb then crcPoly else 0) := by
    rw [BitVec.msb_xor]
    cases x.msb <;> cases y.msb <;> rfl
  simp only [crcRound, hpoly, BitVec.shiftLeft_xor_distrib]
  ac_rfl

theorem crcRounds_xor (n : Nat) (x y : Byte) : crcRounds n (x ^^^ y) = crcRounds n x ^^^ crcRounds n y := by
  induction n generalizing x y with
  | zero => rfl
  | succ n ih => rw [crcRounds, crcRound_xor, ih, crcRounds, crcRounds]

/-- The CRC update is linear in its two bytes together (41_crc.md R139 item 3). -/
theorem crc8_xor (d c d' c' : Byte) : crc8 (d ^^^ d') (c ^^^ c') = crc8 d c ^^^ crc8 d' c' := by
  rw [crc8, crc8, crc8, ← crcRounds_xor]
  congr 1
  ac_rfl

/-! ### Bijectivity -/

/-- A round maps 0x00 alone to 0x00: bit 0 of the polynomial is set. -/
theorem crcRound_eq_zero_iff (x : Byte) : crcRound x = 0 ↔ x = 0 := by
  revert x
  decide

theorem crcRounds_eq_zero_iff (n : Nat) (x : Byte) : crcRounds n x = 0 ↔ x = 0 := by
  induction n generalizing x with
  | zero => rfl
  | succ n ih => rw [crcRounds, ih, crcRound_eq_zero_iff]

/-- The residue of a byte folded over itself, and over no other byte, is 0x00 (41_crc.md R139 item 6). -/
theorem crc8_eq_zero_iff (d c : Byte) : crc8 d c = 0 ↔ d = c := by
  rw [crc8, crcRounds_eq_zero_iff]
  exact BitVec.xor_eq_zero_iff

theorem crcRounds_injective (n : Nat) : Function.Injective (crcRounds n) := by
  intro x y h
  have hzero : crcRounds n (x ^^^ y) = 0 := (crcRounds_xor n x y).trans (BitVec.xor_eq_zero_iff.2 h)
  exact BitVec.xor_eq_zero_iff.1 ((crcRounds_eq_zero_iff n _).1 hzero)

theorem crcRounds_bijective (n : Nat) : Function.Bijective (crcRounds n) :=
  Finite.injective_iff_bijective.1 (crcRounds_injective n)

/-- The two bytes of an update are exchangeable. -/
theorem crc8_comm (d c : Byte) : crc8 d c = crc8 c d := by rw [crc8, crc8, BitVec.xor_comm]

/-- For every running CRC, the update is a bijection of the data byte (41_crc.md R139 item 3). -/
theorem crc8_left_bijective (c : Byte) : Function.Bijective (crc8 · c) :=
  (crcRounds_bijective 8).comp (Function.Involutive.bijective fun d => by simp)

/-- For every data byte, the update is a bijection of the running CRC. -/
theorem crc8_right_bijective (d : Byte) : Function.Bijective (crc8 d) := by
  have hswap : crc8 d = (crc8 · d) := funext (crc8_comm d)
  exact hswap ▸ crc8_left_bijective d

/-! ### The syndrome of a change to a triplet -/

/-- What folding a change of 24 bits leaves, from 0x00 (41_crc.md R139 item 8). -/
def syndrome (e : BitVec 24) : Byte :=
  crc8 (e.extractLsb' 0 8) (crc8 (e.extractLsb' 8 8) (crc8 (e.extractLsb' 16 8) 0))

theorem syndrome_xor (e f : BitVec 24) : syndrome (e ^^^ f) = syndrome e ^^^ syndrome f := by
  have hzero : (0 : Byte) = 0 ^^^ 0 := rfl
  simp only [syndrome, BitVec.extractLsb'_xor]
  rw [hzero, crc8_xor, crc8_xor, crc8_xor]
  rfl

/-- A valid triplet with a change passes its check exactly when the syndrome of the change is 0x00 (41_crc.md R139 items 6
and 8). -/
theorem crcCheck_change_iff (a b : Byte) (e : BitVec 24) :
    crcCheck (a ^^^ e.extractLsb' 16 8) (b ^^^ e.extractLsb' 8 8) (crcFold2 a b ^^^ e.extractLsb' 0 8) = true ↔
      syndrome e = 0 := by
  have hfold : crcFold2 (a ^^^ e.extractLsb' 16 8) (b ^^^ e.extractLsb' 8 8) =
      crcFold2 a b ^^^ crc8 (e.extractLsb' 8 8) (crc8 (e.extractLsb' 16 8) 0) := by
    have hseed : crcSeed = crcSeed ^^^ 0 := rfl
    simp only [crcFold2]
    rw [← crc8_xor, ← crc8_xor, ← hseed]
  rw [crcCheck_eq_true_iff, hfold, BitVec.xor_right_inj, syndrome, crc8_eq_zero_iff, eq_comm]

/-! ### Bursts -/

/-- The bit a byte shifts out, as the bit the byte above it shifts in. -/
def carryOut (x : Byte) : Byte := if x.msb then 1 else 0

/-- A byte shifted is a round of it, up to the polynomial for the bit shifted out, which is what 8 rounds make of that bit in
the byte above. -/
theorem shiftLeft_one_eq_crcRound (x : Byte) : x <<< 1 = crcRound x ^^^ crcRounds 8 (carryOut x) := by
  revert x
  decide

theorem crcRounds_succ_comm (n : Nat) (x : Byte) : crcRounds n (crcRound x) = crcRound (crcRounds n x) := by
  induction n generalizing x with
  | zero => rfl
  | succ n ih => exact ih (crcRound x)

/-- An update with a byte shifted, a bit shifted in, and the bit it shifts out folded in from above, is one more round of the
update, with the bit shifted in left over. -/
theorem crc8_shiftLeft_one (x c b : Byte) :
    crc8 (x <<< 1 ^^^ b) (crcRound c ^^^ crcRounds 8 (carryOut x)) = crcRound (crc8 x c) ^^^ crcRounds 8 b := by
  have hcancel : x <<< 1 ^^^ b ^^^ (crcRound c ^^^ crcRounds 8 (carryOut x)) = crcRound (x ^^^ c) ^^^ b := by
    calc
      x <<< 1 ^^^ b ^^^ (crcRound c ^^^ crcRounds 8 (carryOut x)) =
          (x <<< 1 ^^^ crcRounds 8 (carryOut x)) ^^^ crcRound c ^^^ b := by ac_rfl
      _ = crcRound (x ^^^ c) ^^^ b := by
        rw [shiftLeft_one_eq_crcRound, BitVec.xor_assoc (crcRound x), BitVec.xor_self, BitVec.xor_zero, crcRound_xor]
  rw [crc8, hcancel, crcRounds_xor, crcRounds_succ_comm, crc8]

theorem getLsbD_carryOut (x : Byte) (j : Nat) : (carryOut x).getLsbD j = (decide (j = 0) && x.getLsbD 7) := by
  rw [carryOut, show x.msb = x.getLsbD 7 from x.msb_eq_getLsbD_last]
  cases x.getLsbD 7 <;> simp [BitVec.getLsbD_one]

/-- A byte of a shifted change is the byte shifted, with the bit the byte below it shifts out. -/
theorem extractLsb'_shiftLeft_one (e : BitVec 24) (n : Nat) (hn : n + 16 ≤ 24) :
    (e <<< 1).extractLsb' (n + 8) 8 = e.extractLsb' (n + 8) 8 <<< 1 ^^^ carryOut (e.extractLsb' n 8) := by
  refine BitVec.eq_of_getLsbD_eq fun j hj => ?_
  rw [BitVec.getLsbD_xor, getLsbD_carryOut]
  simp only [BitVec.getLsbD_extractLsb', BitVec.getLsbD_shiftLeft]
  cases j with
  | zero => simp [show n + 8 < 24 by omega]
  | succ j =>
    simp [hj, show n + 8 + (j + 1) < 24 by omega, show j < 8 by omega, show n + 8 + (j + 1) - 1 = n + 8 + j by omega]

/-- The last byte of a shifted change is the byte shifted. -/
theorem extractLsb'_zero_shiftLeft_one (e : BitVec 24) : (e <<< 1).extractLsb' 0 8 = e.extractLsb' 0 8 <<< 1 ^^^ 0 := by
  refine BitVec.eq_of_getLsbD_eq fun j hj => ?_
  have h24 : j < 24 := hj.trans (by decide)
  have hxor : ∀ x : Byte, x ^^^ 0 = x := fun _ => BitVec.xor_zero
  rw [hxor, BitVec.getLsbD_extractLsb', BitVec.getLsbD_shiftLeft, BitVec.getLsbD_shiftLeft, BitVec.getLsbD_extractLsb']
  simp [hj, h24, Nat.lt_of_le_of_lt (Nat.sub_le j 1) hj]

/-- Shifting a change by one bit, with none lost, is one more round of its syndrome. -/
theorem syndrome_shiftLeft_one {e : BitVec 24} (h : e.msb = false) : syndrome (e <<< 1) = crcRound (syndrome e) := by
  have htop : crcRound 0 ^^^ crcRounds 8 (carryOut (e.extractLsb' 16 8)) = 0 := by
    have hmsb : (e.extractLsb' 16 8).msb = false := by simpa [BitVec.msb_eq_getLsbD_last] using h
    rw [carryOut, hmsb]
    decide
  have hlast : crcRounds 8 0 = 0 := by decide
  rw [syndrome, extractLsb'_zero_shiftLeft_one, extractLsb'_shiftLeft_one e 0 (by decide),
    extractLsb'_shiftLeft_one e 8 (by decide)]
  have hfirst : ∀ b : Byte, crc8 (e.extractLsb' 16 8 <<< 1 ^^^ b) 0 =
      crcRound (crc8 (e.extractLsb' 16 8) 0) ^^^ crcRounds 8 b := fun b => by
    rw [← crc8_shiftLeft_one, htop]
  rw [hfirst, crc8_shiftLeft_one, crc8_shiftLeft_one, hlast]
  exact BitVec.xor_zero

/-- Shifting a change by `k` bits, with none lost, is `k` more rounds of its syndrome. -/
theorem syndrome_shiftLeft {e : BitVec 24} {k : Nat} (h : ∀ i, 24 - k ≤ i → e.getLsbD i = false) :
    syndrome (e <<< k) = crcRounds k (syndrome e) := by
  induction k with
  | zero => rw [BitVec.shiftLeft_zero, crcRounds]
  | succ k ih =>
    have hmsb : (e <<< k).msb = false := by
      rw [BitVec.msb_eq_getLsbD_last, BitVec.getLsbD_shiftLeft, h (24 - 1 - k) (by omega), Bool.and_false]
    rw [BitVec.shiftLeft_add, syndrome_shiftLeft_one hmsb, ih fun i hi => h i (by omega), crcRounds,
      crcRounds_succ_comm]

/-- A change to the last byte alone leaves the bytes above it as they are. -/
theorem extractLsb'_setWidth_eq_zero (m : Byte) {n : Nat} (hn : 8 ≤ n) : (m.setWidth 24).extractLsb' n 8 = 0 := by
  refine BitVec.eq_of_getLsbD_eq fun j _ => ?_
  rw [BitVec.getLsbD_extractLsb', BitVec.getLsbD_setWidth, BitVec.getLsbD_of_ge m (n + j) (by omega)]
  simp

/-- The syndrome of a change to the last byte alone. -/
theorem syndrome_setWidth (m : Byte) : syndrome (m.setWidth 24) = crcRounds 8 m := by
  have hlow : (m.setWidth 24).extractLsb' 0 8 = m := by
    refine BitVec.eq_of_getLsbD_eq fun j hj => ?_
    simp [hj, show j < 24 by omega]
  have hzero : crc8 0 0 = 0 := by decide
  rw [syndrome, hlow, extractLsb'_setWidth_eq_zero m (by decide), extractLsb'_setWidth_eq_zero m (by decide), hzero,
    hzero, crc8]
  exact congrArg _ BitVec.xor_zero

/-- A non-zero burst within 8 adjacent bits has a syndrome (41_crc.md R139 item 8). -/
theorem syndrome_burst_ne_zero {m : Byte} {k : Nat} (hm : m ≠ 0) (hk : k ≤ 16) :
    syndrome (m.setWidth 24 <<< k) ≠ 0 := by
  have hfits : ∀ i, 24 - k ≤ i → (m.setWidth 24).getLsbD i = false := fun i hi => by
    rw [BitVec.getLsbD_setWidth, BitVec.getLsbD_of_ge m i (by omega), Bool.and_false]
  rw [syndrome_shiftLeft hfits, syndrome_setWidth, Ne, crcRounds_eq_zero_iff, crcRounds_eq_zero_iff]
  exact hm

/-- The syndrome of one changed bit: the polynomial, and one round for each bit below it. -/
theorem syndrome_one_shiftLeft {i : Nat} (hi : i < 24) : syndrome (1#24 <<< i) = crcRounds i crcPoly := by
  have hfits : ∀ j, 24 - i ≤ j → (1#24).getLsbD j = false := fun j hj => by
    simp [BitVec.getLsbD_one]; omega
  have hone : syndrome 1#24 = crcPoly := by decide
  rw [syndrome_shiftLeft hfits, hone]

/-- One changed bit has a syndrome (41_crc.md R139 item 8). -/
theorem syndrome_bit_ne_zero {i : Nat} (hi : i < 24) : syndrome (1#24 <<< i) ≠ 0 := by
  rw [syndrome_one_shiftLeft hi, Ne, crcRounds_eq_zero_iff]
  decide

theorem crcRounds_add (n k : Nat) (x : Byte) : crcRounds (n + k) x = crcRounds k (crcRounds n x) := by
  induction n generalizing x with
  | zero => rw [Nat.zero_add, crcRounds]
  | succ n ih => rw [Nat.succ_add, crcRounds, ih, crcRounds]

/-- Fewer than 24 rounds do not bring the polynomial back to itself. -/
theorem crcRounds_crcPoly_ne {n : Nat} (hpos : 0 < n) (hn : n < 24) : crcRounds n crcPoly ≠ crcPoly := by
  interval_cases n <;> decide

/-- Two changed bits have a syndrome: they cancel only where the rounds between them bring the polynomial back (41_crc.md R139
item 8). -/
theorem syndrome_two_bits_ne_zero {i j : Nat} (hij : i < j) (hj : j < 24) :
    syndrome (1#24 <<< i ^^^ 1#24 <<< j) ≠ 0 := by
  intro hzero
  rw [syndrome_xor, syndrome_one_shiftLeft (hij.trans hj), syndrome_one_shiftLeft hj] at hzero
  have hsame : crcRounds i crcPoly = crcRounds i (crcRounds (j - i) crcPoly) := by
    rw [← crcRounds_add, Nat.sub_add_cancel hij.le]
    exact BitVec.xor_eq_zero_iff.1 hzero
  exact crcRounds_crcPoly_ne (by omega) (by omega) (crcRounds_injective i hsame).symm

end Sys2Proof.Proofs
end

section
/-! PROOFS. The CRC's algebra: it is linear and bijective, a triplet's residue, the pairs of each value, and the errors it
detects (41_crc.md section 3). -/

namespace Sys2Proof.Proofs

open Sys2Proof Sys2Proof.Machine

/-- Settles O41: the rounds are linear with kernel 0x00, so on finitely many bytes they are a bijection. -/
theorem crcUpdateIsLinearAndBijective : Obligations.CrcUpdateIsLinearAndBijective :=
  ⟨crc8_xor, fun c => (crc8_left_bijective c).existsUnique⟩

/-- Settles O42: the linear update is 0x00 on equal bytes alone. -/
theorem crcResidueIsZeroExactlyOnMatch : Obligations.CrcResidueIsZeroExactlyOnMatch := by
  refine ⟨crc8_eq_zero_iff, fun a b e => ?_⟩
  rw [crcCheck_eq_true_iff, crc8_eq_zero_iff, eq_comm]

/-- Settles O43: the fold is an update by the second byte, of an update by the first. -/
theorem eachCrcValueIsReachedByOneByteOfEach : Obligations.EachCrcValueIsReachedByOneByteOfEach :=
  ⟨fun a => (crc8_left_bijective (crc8 a crcSeed)).existsUnique,
    fun b => ((crc8_right_bijective b).comp (crc8_left_bijective crcSeed)).existsUnique⟩

/-- With CRC_EN = 1, DEC.FLOW rejects a frame that fails its check, and nothing but the response buffer changes
(40_frame_codec.md R104). -/
theorem exec_decFlow_of_crcCheck_eq_false {b0 b1 b2 : Byte} {s : State} (h : crcCheck b0 b1 b2 = false)
    (hen : s.cfc.crcEn = true) :
    exec (.decFlow b0 b1 b2) s = .next { s with cfc := { s.cfc with rspFull := true, rspBuf := 0x50000000000000 } } := by
  rw [exec_eq_opAnswer, opAnswer, if_pos ⟨hen, (crcCheck_eq_false_iff _ _ _).1 h⟩]
  rfl

/-- Settles O44: each kind of error has a syndrome, so the changed triplet fails its check. -/
theorem corruptedFlowFramesAreRejected : Obligations.CorruptedFlowFramesAreRejected := by
  intro a b e herror c0 c1 c2
  have hsyndrome : syndrome e ≠ 0 := by
    obtain ⟨i, hi, rfl⟩ | ⟨i, j, hij, hj, rfl⟩ | ⟨m, k, hm, hk, rfl⟩ := herror
    · exact syndrome_bit_ne_zero hi
    · exact syndrome_two_bits_ne_zero hij hj
    · exact syndrome_burst_ne_zero hm hk
  have hfail : crcCheck c0 c1 c2 = false := Bool.eq_false_iff.2 (mt (crcCheck_change_iff a b e).1 hsyndrome)
  exact ⟨hfail, fun s hen => exec_decFlow_of_crcCheck_eq_false hfail hen⟩

end Sys2Proof.Proofs
end

section
/-! PROOFS. The assembly text: both numerals of a byte are read back, and every mnemonic with its operands is its operation
(30_encoding.md R71). -/

namespace Sys2Proof.Proofs

open Sys2Proof Sys2Proof.Machine

/-! ### Operands -/

/-- Two hexadecimal digits of a byte, the high one first, are read as its value. -/
theorem asmByte_hex (b : Byte) : asmByte (asmNumeral true b) = some b := by
  revert b
  decide +kernel

/-- The decimal number of a byte is read as its value. -/
theorem asmByte_dec (b : Byte) : asmByte (asmNumeral false b) = some b := by
  revert b
  decide +kernel

/-- Either numeral of a byte is read as that byte (30_encoding.md R71). -/
theorem asmByte_asmNumeral (hex : Bool) (b : Byte) : asmByte (asmNumeral hex b) = some b := by
  cases hex with
  | true => exact asmByte_hex b
  | false => exact asmByte_dec b

/-- Operands each read as a byte are read as the list of those bytes. -/
theorem asmBytes_cons {t : List Char} {ts : List (List Char)} {b : Byte} {bs : List Byte} (hb : asmByte t = some b)
    (hbs : asmBytes ts = some bs) : asmBytes (t :: ts) = some (b :: bs) := by
  simp only [asmBytes, hb, hbs]

/-- Numerals, each in either form, are read as the list of their bytes. -/
theorem asmBytes_numerals (ops : List (Bool × Byte)) :
    asmBytes (ops.map fun op => asmNumeral op.1 op.2) = some (ops.map Prod.snd) := by
  induction ops with
  | nil => rfl
  | cons op ops ih => exact asmBytes_cons (asmByte_asmNumeral op.1 op.2) ih

/-- A kind name is no byte, so an operand that is a byte is read as it by `cmd.build` too (30_encoding.md R71). -/
theorem asmKind_of_asmByte {t : List Char} {b : Byte} (h : asmByte t = some b) : asmKind t = some b := by
  have hnames : ∀ name ∈ ["start".toList, "softreset".toList, "serial".toList], t ≠ name := by
    have hnone : ∀ name ∈ ["start".toList, "softreset".toList, "serial".toList], asmByte name = none := by decide
    rintro name hname rfl
    exact nomatch (hnone _ hname).symm.trans h
  rw [asmKind, if_neg (hnames _ (by decide)), if_neg (hnames _ (by decide)), if_neg (hnames _ (by decide)), h]

/-! ### Operations -/

/-- A mnemonic other than `cmd.build`, with numerals for its operands, is read by those operands' bytes (30_encoding.md R71). -/
theorem asmOperation_numerals {mnemonic : List Char} (h : mnemonic ≠ "cmd.build".toList) (ops : List (Bool × Byte)) :
    asmOperation mnemonic (ops.map fun op => asmNumeral op.1 op.2) =
      asmByteOperation mnemonic (ops.map Prod.snd) := by
  unfold asmOperation
  rw [if_neg h, asmBytes_numerals]

/-- `cmd.build` with a numeral is CMD.BUILD of that KIND (30_encoding.md R71). -/
theorem asmOperation_cmdBuild (hex : Bool) (a : Byte) :
    asmOperation "cmd.build".toList [asmNumeral hex a] = some (.cmdBuild a) := by
  simp only [asmOperation, if_true, asmKind_of_asmByte (asmByte_asmNumeral hex a), Option.map_some]

/-- Settles O47: the numerals are read as their bytes, and the mnemonic picks the operation of that many bytes. -/
theorem assemblyReadsEveryOperand : Obligations.AssemblyReadsEveryOperand := by
  refine ⟨asmByte_asmNumeral, fun x a => ⟨asmOperation_cmdBuild x a, ?_⟩, by decide, by decide, by decide,
    fun x y a b => ⟨?_, ?_⟩, fun x y z a b c => ⟨?_, ?_⟩, fun u v w x y z a b c d e f => ?_, by decide⟩
  · exact asmOperation_numerals (by decide) [(x, a)]
  · exact asmOperation_numerals (by decide) [(x, a), (y, b)]
  · exact asmOperation_numerals (by decide) [(x, a), (y, b)]
  · exact asmOperation_numerals (by decide) [(x, a), (y, b), (z, c)]
  · exact asmOperation_numerals (by decide) [(x, a), (y, b), (z, c)]
  · exact asmOperation_numerals (by decide) [(u, a), (v, b), (w, c), (x, d), (y, e), (z, f)]

end Sys2Proof.Proofs
end
